-- ==== Sys2Proof/Word.lean ====
section
/-! DEFINITION. The words of the SA-410: bytes on the link, the wrapping counts of the Counting Unit and the
timebase, and a record of four like things (one per axis). -/

namespace Sys2Proof

/-- A byte on the serial link (R170). -/
abbrev Byte := BitVec 8

/-- The raw count and the base: 32-bit signed counts that wrap (R6, R8). -/
abbrev Count := BitVec 32

/-- The timebase: a 32-bit millisecond count that wraps (R199). -/
abbrev Time := BitVec 32

/-- The four axes, numbered 0 to 3 in fields (C00 section 4.4). -/
inductive AxisId where
  | axis0 | axis1 | axis2 | axis3
  deriving DecidableEq, Repr

/-- Four like things, one per axis. -/
structure Quad (α : Type) where
  a0 : α
  a1 : α
  a2 : α
  a3 : α
  deriving DecidableEq, Repr

end Sys2Proof
end

