-- ==== Sys2Proof/Config.lean ====
section
/-! DEFINITION. What the SA-410 fixes: its capacities (C00 section 1.2, table 10-1), its identity (table 10-1) and
its position range. The spec leaves no value free, so this file holds no opaque constant (INVENTORY.md). -/

namespace Sys2Proof.Config

/-- VENDOR-CODE (table 10-1). -/
abbrev vendorCode : Nat := 2908
/-- PART-CODE (table 10-1). -/
abbrev partCode : Nat := 410
/-- REVISION (table 10-1). -/
abbrev revision : Nat := 3
/-- AXES (table 10-1). -/
abbrev axes : Nat := 4
/-- Capacity of the Station Pool (R41). -/
abbrev stations : Nat := 384
/-- Entries of the Profile Table (R48). -/
abbrev profiles : Nat := 16
/-- Window slots (R124). -/
abbrev windows : Nat := 48
/-- Guard slots (R131). -/
abbrev guards : Nat := 12
/-- Orders in one move queue (R57). -/
abbrev queue : Nat := 8
/-- Entries of the Notice Queue, marker included (R157). -/
abbrev notices : Nat := 32
/-- Ordinary notices the Notice Queue holds (R158). -/
abbrev ordinary : Nat := 31
/-- SENT notices at most (R161). -/
abbrev sendWindow : Nat := 8
/-- Requests in the intake queue (R176). -/
abbrev intake : Nat := 4
/-- Replies in the reply queue (R177). -/
abbrev replies : Nat := 4
/-- Entries of the reply cache (R182). -/
abbrev cache : Nat := 8
/-- Records in one capture ring (R152). -/
abbrev ring : Nat := 8
/-- Groups in one LIST-STATIONS reply (R47). -/
abbrev stationPage : Nat := 12
/-- Longest body (R197, section 11.4). -/
abbrev maxBody : Nat := 200
/-- Shortest body (R171). -/
abbrev minBody : Nat := 3
/-- Largest position of a LINEAR axis, and the bound of every position field (R8). -/
abbrev maxPosition : Int := 67108863
/-- Largest datum shift (R38). -/
abbrev maxShift : Int := 16777215
/-- The frame gap in ms (R172). -/
abbrev frameGap : Nat := 5
/-- The line-check time in ms (R12). -/
abbrev lineTime : Nat := 1
/-- Where counters, sequence numbers and capture numbers end (R157, R150, R175). -/
abbrev maxNumber : Nat := 65535
/-- The SYNC byte (R171). -/
abbrev sync : Byte := 0x5A

end Sys2Proof.Config
end

