-- ==== Sys2Proof/Syntax.lean ====
section
/-! DEFINITION. The commands of the SA-410: one constructor per row of spec/opcode_table.json.
A request row has no operand: the request it executes, with its TAG and its fields, is the oldest of the intake queue
(R177). Operands of the other rows are what the outside supplies: levels, bytes, the axis, and what the spec leaves
open (which of two blocks takes an event first; how many microseconds behind its duration a timer expires). -/

namespace Sys2Proof

/-- A party that offers notices or takes an event, or the start of a head order, which an Axis Controller takes apart
from the event that made it due. Used to say which of two is taken first where the spec leaves the order open (R8, R31,
R135, R151, R153, R164, R188). -/
inductive Block where
  | axisController (a : AxisId)
  | windowMonitor
  | captureLog
  | linkPort
  | orderStart (a : AxisId)
  deriving DecidableEq, Repr

/-- What RXD brings (R170): a byte with a good stop bit, a byte whose stop bit is at the spacing level, or a break. -/
inductive LineEvent where
  | byte (b : Byte)
  | damaged
  | breakSignal
  deriving DecidableEq, Repr

/-- The levels of the true lines A and B of an encoder (R6); true is high. -/
structure EncoderLevels where
  a : Bool
  b : Bool
  deriving DecidableEq, Repr

/-- For each of the three pairs of an encoder, whether the true line and its complement are at the same level (R12). -/
structure PairMismatch where
  a : Bool
  b : Bool
  z : Bool
  deriving DecidableEq, Repr

/-- The levels of the rate straps (R170); true is high. -/
structure Straps where
  rate1 : Bool
  rate0 : Bool
  deriving DecidableEq, Repr

/-- The moment of a step that may reset the part: how many microseconds behind its duration the timer expires, and the
straps as they stand then. -/
structure Moment where
  late : Nat
  straps : Straps
  deriving DecidableEq, Repr

/-- What a RESET finds (R192): the straps, and whether RESETN stays low from now on. -/
structure ResetPins where
  straps : Straps
  held : Bool
  deriving DecidableEq, Repr

/-- One step of the SA-410. -/
inductive Instr where
  | openSession
  | closeSession
  | ping
  | identify
  | linkStatus
  | restart
  | setAxis
  | getAxis
  | axisStatus
  | clearFault
  | home
  | teach
  | shift
  | putStation
  | dropStation
  | getStation
  | listStations
  | putProfile
  | getProfile
  | dropProfile
  | enqueue
  | cancel
  | hold
  | release
  | stop
  | listOrders
  | jog
  | putWindow
  | dropWindow
  | getWindow
  | putGuard
  | dropGuard
  | getGuard
  | setOutputs
  | setCapture
  | readCaptures
  | ackNotices
  | resendNotices
  | retryFromCache
  | frameReceived
  | frameGapExpiry (late : Nat)
  | replyFrameStart
  | noticeFrameStart
  | frameEnd (moment : Moment)
  | keepaliveExpiry (order : List Block) (moment : Moment)
  | reset (pins : ResetPins)
  | countEdge (axis : AxisId) (levels : EncoderLevels) (order : List Block)
  | indexMark (axis : AxisId) (edge : Option EncoderLevels) (order : List Block)
  | senseEdge (axis : AxisId) (high : Bool) (order : List Block)
  | linePairChange (axis : AxisId) (mismatch : PairMismatch)
  | lineTimerExpiry (axis : AxisId) (late : Nat)
  | stallTimerExpiry (axis : AxisId) (late : Nat)
  | homingLimitExpiry (axis : AxisId) (late : Nat)
  | settleTimerExpiry (axis : AxisId) (late : Nat)
  | restTimerExpiry (axis : AxisId) (late : Nat)
  | moveLimitExpiry (axis : AxisId) (late : Nat)
  | lockoutTimerExpiry (axis : AxisId) (late : Nat)
  | deadmanExpiry (axis : AxisId) (late : Nat)
  | orderStart (axis : AxisId)
  | stopClaim (axis : AxisId)
  | limitClaim (axis : AxisId)
  | guardRelease (axis : AxisId)
  | faultClaim (axis : AxisId)
  | byteReceived (event : LineEvent)
  | unknownRequestCode
  deriving DecidableEq, Repr

end Sys2Proof
end

