-- ==== Sys2Proof/WellFormed.lean ====
section
/-! DEFINITION. Which commands are well formed. The types leave one thing to check: an order of blocks names no
block twice, because a block takes one event once. -/

namespace Sys2Proof

/-- The order of blocks a command carries, if it carries one. -/
def Instr.blockOrder : Instr → List Block
  | .keepaliveExpiry order _ => order
  | .countEdge _ _ order => order
  | .indexMark _ _ order => order
  | .senseEdge _ _ order => order
  | _ => []

/-- A command is well formed when its block order names no block twice. -/
abbrev Instr.WellFormed (i : Instr) : Prop := i.blockOrder.Nodup

end Sys2Proof
end

