-- ==== Sys2Proof/Decode.lean ====
section
/-! DEFINITION. The SA-410 has no opcode words: no row of spec/opcode_table.json gives bits, so no word spells a
command. -/

namespace Sys2Proof

/-- No row of the table gives bits, so no word spells a command. -/
def decodeTableWord (_nbits _w : Nat) : Option Instr := none

end Sys2Proof
end

