-- ==== Sys2Proof/Machine/Named.lean ====
section
/-! DEFINITION. The named values of the SA-410 (table 11-6, table 11-9), each with the code it has on the line and,
where a request carries it, the value a code stands for. A code outside the set never reaches `ofCode`: step 3 of R178
refuses it. -/

namespace Sys2Proof.Machine

/-- ROLE (table 1-1). -/
inductive Role where
  | watched | driven
  deriving DecidableEq, Repr

/-- The code of Role on the line (table 11-6). -/
def Role.code : Role → Nat
  | .watched => 0
  | .driven => 1

/-- The Role a code stands for (table 11-6). -/
def Role.ofCode (v : Int) : Role :=
  if v = 0 then .watched else .driven

/-- KIND (table 1-1). -/
inductive AxisKind where
  | linear | rotary
  deriving DecidableEq, Repr

/-- The code of AxisKind on the line (table 11-6). -/
def AxisKind.code : AxisKind → Nat
  | .linear => 0
  | .rotary => 1

/-- The AxisKind a code stands for (table 11-6). -/
def AxisKind.ofCode (v : Int) : AxisKind :=
  if v = 0 then .linear else .rotary

/-- COUNT-SENSE (table 1-1). -/
inductive CountSense where
  | normal | inverted
  deriving DecidableEq, Repr

/-- The code of CountSense on the line (table 11-6). -/
def CountSense.code : CountSense → Nat
  | .normal => 0
  | .inverted => 1

/-- The CountSense a code stands for (table 11-6). -/
def CountSense.ofCode (v : Int) : CountSense :=
  if v = 0 then .normal else .inverted

/-- ROT-POLICY (table 1-1). -/
inductive RotPolicy where
  | shortest | forward | reverse
  deriving DecidableEq, Repr

/-- The code of RotPolicy on the line (table 11-6). -/
def RotPolicy.code : RotPolicy → Nat
  | .shortest => 0
  | .forward => 1
  | .reverse => 2

/-- The RotPolicy a code stands for (table 11-6). -/
def RotPolicy.ofCode (v : Int) : RotPolicy :=
  if v = 0 then .shortest else if v = 1 then .forward else .reverse

/-- SENSE-LEVEL (table 1-1). -/
inductive SenseLevel where
  | activeLow | activeHigh
  deriving DecidableEq, Repr

/-- The code of SenseLevel on the line (table 11-6). -/
def SenseLevel.code : SenseLevel → Nat
  | .activeLow => 0
  | .activeHigh => 1

/-- The SenseLevel a code stands for (table 11-6). -/
def SenseLevel.ofCode (v : Int) : SenseLevel :=
  if v = 0 then .activeLow else .activeHigh

/-- REFERENCE (R9, R10). -/
inductive Reference where
  | unreferenced | referenced
  deriving DecidableEq, Repr

/-- The code of Reference on the line (table 11-6). -/
def Reference.code : Reference → Nat
  | .unreferenced => 0
  | .referenced => 1

/-- A direction of motion or of counting (R6); NONE is the absence of one. -/
inductive Dir where
  | positive | negative
  deriving DecidableEq, Repr

/-- The code of Dir on the line (table 11-6). -/
def Dir.code : Dir → Nat
  | .positive => 1
  | .negative => 2

/-- The Dir a code stands for (table 11-6). -/
def Dir.ofCode (v : Int) : Dir :=
  if v = 1 then .positive else .negative

/-- Fault kinds (R16). -/
inductive FaultKind where
  | line | slip | overrange | stall
  deriving DecidableEq, Repr

/-- The code of FaultKind on the line (table 11-6). -/
def FaultKind.code : FaultKind → Nat
  | .line => 1
  | .slip => 2
  | .overrange => 3
  | .stall => 4

/-- METHOD of HOME (table 2-1). -/
inductive Method where
  | switchIndex | switchEdge | indexOnly
  deriving DecidableEq, Repr

/-- The code of Method on the line (table 11-6). -/
def Method.code : Method → Nat
  | .switchIndex => 0
  | .switchEdge => 1
  | .indexOnly => 2

/-- The Method a code stands for (table 11-6). -/
def Method.ofCode (v : Int) : Method :=
  if v = 0 then .switchIndex else if v = 1 then .switchEdge else .indexOnly

/-- APPROACH of a profile (table 3-2). -/
inductive Approach where
  | either | fromBelow | fromAbove
  deriving DecidableEq, Repr

/-- The code of Approach on the line (table 11-6). -/
def Approach.code : Approach → Nat
  | .either => 0
  | .fromBelow => 1
  | .fromAbove => 2

/-- The Approach a code stands for (table 11-6). -/
def Approach.ofCode (v : Int) : Approach :=
  if v = 0 then .either else if v = 1 then .fromBelow else .fromAbove

/-- CHAIN of an order (table 4-1). -/
inductive Chain where
  | continue_ | pause
  deriving DecidableEq, Repr

/-- The code of Chain on the line (table 11-6). -/
def Chain.code : Chain → Nat
  | .continue_ => 0
  | .pause => 1

/-- The Chain a code stands for (table 11-6). -/
def Chain.ofCode (v : Int) : Chain :=
  if v = 0 then .continue_ else .pause

/-- REASON of ORDER-DONE, HOME-FAILED and JOG-ENDED (table 11-6). -/
inductive Reason where
  | none | stopped | cancelled | guarded | limited | overshoot | short | timeout | unreferenced | stationGone
  | outOfRange | conflict | linkLost | line | slip | overrange | stall | ended | expired
  deriving DecidableEq, Repr

/-- The code of Reason on the line (table 11-6). -/
def Reason.code : Reason → Nat
  | .none => 0
  | .stopped => 1
  | .cancelled => 2
  | .guarded => 3
  | .limited => 4
  | .overshoot => 5
  | .short => 6
  | .timeout => 7
  | .unreferenced => 8
  | .stationGone => 9
  | .outOfRange => 10
  | .conflict => 11
  | .linkLost => 12
  | .line => 13
  | .slip => 14
  | .overrange => 15
  | .stall => 16
  | .ended => 17
  | .expired => 18

/-- ZONE (R97). -/
inductive Zone where
  | slowEntered | cutEntered | windowEntered | passed
  deriving DecidableEq, Repr

/-- The code of Zone on the line (table 11-6). -/
def Zone.code : Zone → Nat
  | .slowEntered => 1
  | .cutEntered => 2
  | .windowEntered => 3
  | .passed => 4

/-- SPEED of a jog (table 6-1). -/
inductive Speed where
  | creep | high
  deriving DecidableEq, Repr

/-- The code of Speed on the line (table 11-6). -/
def Speed.code : Speed → Nat
  | .creep => 0
  | .high => 1

/-- The Speed a code stands for (table 11-6). -/
def Speed.ofCode (v : Int) : Speed :=
  if v = 0 then .creep else .high

/-- REPORT of a window (table 7-1). -/
inductive Report where
  | none | enter | leave | both
  deriving DecidableEq, Repr

/-- The code of Report on the line (table 11-6). -/
def Report.code : Report → Nat
  | .none => 0
  | .enter => 1
  | .leave => 2
  | .both => 3

/-- The Report a code stands for (table 11-6). -/
def Report.ofCode (v : Int) : Report :=
  if v = 0 then .none else if v = 1 then .enter else if v = 2 then .leave else .both

/-- LIMIT-ROLE of a window (table 7-1). -/
inductive LimitRole where
  | none | noPositive | noNegative
  deriving DecidableEq, Repr

/-- The code of LimitRole on the line (table 11-6). -/
def LimitRole.code : LimitRole → Nat
  | .none => 0
  | .noPositive => 1
  | .noNegative => 2

/-- The LimitRole a code stands for (table 11-6). -/
def LimitRole.ofCode (v : Int) : LimitRole :=
  if v = 0 then .none else if v = 1 then .noPositive else .noNegative

/-- OCCUPANCY of a window (R126). -/
inductive Occupancy where
  | unknown | vacant | occupied
  deriving DecidableEq, Repr

/-- The code of Occupancy on the line (table 11-6). -/
def Occupancy.code : Occupancy → Nat
  | .unknown => 0
  | .vacant => 1
  | .occupied => 2

/-- CROSSING of a WINDOW notice (R127). -/
inductive Crossing where
  | enter | leave
  deriving DecidableEq, Repr

/-- The code of Crossing on the line (table 11-6). -/
def Crossing.code : Crossing → Nat
  | .enter => 1
  | .leave => 2

/-- GUARD-STATE (R132). -/
inductive GuardState where
  | clear | tripped
  deriving DecidableEq, Repr

/-- The code of GuardState on the line (table 11-6). -/
def GuardState.code : GuardState → Nat
  | .clear => 0
  | .tripped => 1

/-- CAPTURE-MODE (R147). -/
inductive CaptureMode where
  | off | rise | fall | both
  deriving DecidableEq, Repr

/-- The code of CaptureMode on the line (table 11-6). -/
def CaptureMode.code : CaptureMode → Nat
  | .off => 0
  | .rise => 1
  | .fall => 2
  | .both => 3

/-- The CaptureMode a code stands for (table 11-6). -/
def CaptureMode.ofCode (v : Int) : CaptureMode :=
  if v = 0 then .off else if v = 1 then .rise else if v = 2 then .fall else .both

/-- EDGE of a capture record (R150). -/
inductive Edge where
  | rise | fall
  deriving DecidableEq, Repr

/-- The code of Edge on the line (table 11-6). -/
def Edge.code : Edge → Nat
  | .rise => 1
  | .fall => 2

/-- CAUSE of a reset (R165). -/
inductive Cause where
  | power | request
  deriving DecidableEq, Repr

/-- The code of Cause on the line (table 11-6). -/
def Cause.code : Cause → Nat
  | .power => 1
  | .request => 2

/-- SESSION (R184). -/
inductive Session where
  | closed | opened
  deriving DecidableEq, Repr

/-- The code of Session on the line (table 11-6). -/
def Session.code : Session → Nat
  | .closed => 0
  | .opened => 1

/-- SHIFT-MODE (R38). -/
inductive ShiftMode where
  | set | add
  deriving DecidableEq, Repr

/-- The code of ShiftMode on the line (table 11-6). -/
def ShiftMode.code : ShiftMode → Nat
  | .set => 0
  | .add => 1

/-- The ShiftMode a code stands for (table 11-6). -/
def ShiftMode.ofCode (v : Int) : ShiftMode :=
  if v = 0 then .set else .add

/-- Results of replies (table 11-9). -/
inductive Result where
  | ok | badFormat | badValue | notOpen | wrongState | noSuch | exists_ | full | inUse | notReferenced
  | guarded | limited | faulted | owned | conflict
  deriving DecidableEq, Repr

/-- The code of Result on the line (table 11-9). -/
def Result.code : Result → Nat
  | .ok => 0
  | .badFormat => 1
  | .badValue => 2
  | .notOpen => 3
  | .wrongState => 4
  | .noSuch => 5
  | .exists_ => 6
  | .full => 7
  | .inUse => 8
  | .notReferenced => 9
  | .guarded => 10
  | .limited => 11
  | .faulted => 12
  | .owned => 13
  | .conflict => 14

/-- The other direction. -/
def Dir.opposite : Dir → Dir
  | .positive => .negative
  | .negative => .positive

/-- The DIRECTION code of an optional direction; NONE is 0 (table 11-6). -/
def dirCode : Option Dir → Nat
  | none => 0
  | some d => d.code

/-- One count in a direction, as a signed number. -/
def Dir.sign : Dir → Int
  | .positive => 1
  | .negative => -1

/-- The reason that carries a fault kind (tables 4-4 and 6-3). -/
def FaultKind.reason : FaultKind → Reason
  | .line => .line
  | .slip => .slip
  | .overrange => .overrange
  | .stall => .stall

/-- Whether a reason is a fault kind, so that the axis ends FAULTED (R17, R70, R119). -/
def Reason.isFault : Reason → Bool
  | .line | .slip | .overrange | .stall => true
  | _ => false

/-- The direction a limit role forbids (R129). -/
def LimitRole.forbids : LimitRole → Option Dir
  | .none => Option.none
  | .noPositive => some .positive
  | .noNegative => some .negative

/-- Whether a window's REPORT asks for a crossing (R127). -/
def Report.asks : Report → Crossing → Bool
  | .none, _ => false
  | .enter, .enter => true
  | .enter, .leave => false
  | .leave, .enter => false
  | .leave, .leave => true
  | .both, _ => true

/-- Whether a capture mode records an edge (R147, R149). -/
def CaptureMode.records : CaptureMode → Edge → Bool
  | .off, _ => false
  | .rise, .rise => true
  | .rise, .fall => false
  | .fall, .rise => false
  | .fall, .fall => true
  | .both, _ => true

/-- The bit rate the straps select (R170). -/
def rateOf : Straps → Nat
  | ⟨false, false⟩ => 19200
  | ⟨false, true⟩ => 57600
  | ⟨true, false⟩ => 115200
  | ⟨true, true⟩ => 460800

end Sys2Proof.Machine
end

