-- ==== Sys2Proof/Machine/Fields.lean ====
section
/-! DEFINITION. The field dictionary (table 11-5), the request codes with the fields of each request (table 11-8) and
the ranges of request fields (table 11-5, R195). -/

namespace Sys2Proof.Machine

/-- The fields of table 11-5, by name. -/
inductive FieldId where
  | axis | detail | keepalive | session | queued | clear | crc | gap | format | dropped | vendorCode | partCode
  | revision | axes | stations | profiles | windows | guards | queue | notices | linkRate | cause | more | skip
  | role | kind | modulus | countSense | rotPolicy | indexSpacing | indexTol | lineCheck | stallTime | restTime
  | reversalGap | senseLevel | reference | rawCount | position | motion | substate | queueLength | lines
  | holdPending | firstFault | faultTime | faultCount | laterFault | captures | shift | shiftMode | method
  | seekDir | qualifyDir | datum | fast | timeLimit | station | profile | settle | created | free | first
  | next | slowDist | cutDist | windowDist | approach | takeupDist | corrections | orderTag | target | chain
  | notify | all | flush | removed | active | resolvedTarget | resolvedProfile | resolvedSettle | direction
  | takeup | correctionsUsed | outcome | reason | zone | speed | deadman | window | lower | upper | output
  | report | limitRole | occupancy | crossing | guard | member | stopAxis | guardState | mask | values
  | outputs | windowOwned | captureMode | captureNo | edge | time | overwrote | remaining | count | seq
  | resent | discarded | faultKind | stoppedAxis | lossTime
  deriving DecidableEq, Repr

/-- The field id (table 11-5, column Id). -/
def FieldId.code : FieldId → Nat
  | .axis => 1
  | .detail => 2
  | .keepalive => 3
  | .session => 4
  | .queued => 5
  | .clear => 6
  | .crc => 7
  | .gap => 8
  | .format => 9
  | .dropped => 10
  | .vendorCode => 11
  | .partCode => 12
  | .revision => 13
  | .axes => 14
  | .stations => 15
  | .profiles => 16
  | .windows => 17
  | .guards => 18
  | .queue => 19
  | .notices => 20
  | .linkRate => 21
  | .cause => 22
  | .more => 23
  | .skip => 24
  | .role => 32
  | .kind => 33
  | .modulus => 34
  | .countSense => 35
  | .rotPolicy => 36
  | .indexSpacing => 37
  | .indexTol => 38
  | .lineCheck => 39
  | .stallTime => 40
  | .restTime => 41
  | .reversalGap => 42
  | .senseLevel => 43
  | .reference => 44
  | .rawCount => 45
  | .position => 46
  | .motion => 47
  | .substate => 48
  | .queueLength => 49
  | .lines => 50
  | .holdPending => 51
  | .firstFault => 52
  | .faultTime => 53
  | .faultCount => 54
  | .laterFault => 55
  | .captures => 56
  | .shift => 57
  | .shiftMode => 58
  | .method => 64
  | .seekDir => 65
  | .qualifyDir => 66
  | .datum => 67
  | .fast => 68
  | .timeLimit => 69
  | .station => 80
  | .profile => 81
  | .settle => 82
  | .created => 83
  | .free => 84
  | .first => 85
  | .next => 86
  | .slowDist => 87
  | .cutDist => 88
  | .windowDist => 89
  | .approach => 90
  | .takeupDist => 91
  | .corrections => 92
  | .orderTag => 96
  | .target => 97
  | .chain => 98
  | .notify => 99
  | .all => 100
  | .flush => 101
  | .removed => 102
  | .active => 103
  | .resolvedTarget => 104
  | .resolvedProfile => 105
  | .resolvedSettle => 106
  | .direction => 107
  | .takeup => 108
  | .correctionsUsed => 109
  | .outcome => 110
  | .reason => 111
  | .zone => 112
  | .speed => 113
  | .deadman => 114
  | .window => 120
  | .lower => 121
  | .upper => 122
  | .output => 123
  | .report => 124
  | .limitRole => 125
  | .occupancy => 126
  | .crossing => 127
  | .guard => 128
  | .member => 129
  | .stopAxis => 130
  | .guardState => 131
  | .mask => 132
  | .values => 133
  | .outputs => 134
  | .windowOwned => 135
  | .captureMode => 140
  | .captureNo => 141
  | .edge => 142
  | .time => 143
  | .overwrote => 144
  | .remaining => 145
  | .count => 146
  | .seq => 150
  | .resent => 151
  | .discarded => 152
  | .faultKind => 153
  | .stoppedAxis => 154
  | .lossTime => 155

/-- The bytes of the value (table 11-5, column Bytes). -/
def FieldId.size : FieldId → Nat
  | .keepalive | .crc | .gap | .format | .dropped | .vendorCode | .partCode | .stations | .stallTime
  | .restTime | .reversalGap | .timeLimit | .station | .settle | .free | .first | .next | .windowDist
  | .orderTag | .resolvedSettle | .deadman | .captureNo | .count | .seq | .discarded => 2
  | .linkRate | .modulus | .indexSpacing | .rawCount | .position | .faultTime | .faultCount | .shift
  | .datum | .slowDist | .cutDist | .takeupDist | .target | .resolvedTarget | .lower | .upper | .time
  | .lossTime => 4
  | _ => 1

/-- Whether the value is two's complement (table 11-5, column Signed). -/
def FieldId.signed : FieldId → Bool
  | .rawCount | .position | .faultCount | .shift | .datum | .target | .resolvedTarget | .lower | .upper => true
  | _ => false

/-- The list fields a request may carry several times (tables 11-5 and 11-8). -/
def FieldId.isList : FieldId → Bool
  | .member | .stopAxis => true
  | _ => false

/-- The requests of table 11-8. -/
inductive ReqCode where
  | openSession | closeSession | ping | identify | linkStatus | restart | setAxis | getAxis | axisStatus
  | clearFault | home | teach | shift | putStation | dropStation | getStation | listStations | putProfile
  | getProfile | dropProfile | enqueue | cancel | hold | release | stop | listOrders | jog | putWindow
  | dropWindow | getWindow | putGuard | dropGuard | getGuard | setOutputs | setCapture | readCaptures
  | ackNotices | resendNotices
  deriving DecidableEq, Repr

/-- The request code (table 11-8). -/
def ReqCode.code : ReqCode → Nat
  | .openSession => 1
  | .closeSession => 2
  | .ping => 3
  | .identify => 4
  | .linkStatus => 5
  | .restart => 6
  | .setAxis => 16
  | .getAxis => 17
  | .axisStatus => 18
  | .clearFault => 19
  | .home => 24
  | .teach => 25
  | .shift => 26
  | .putStation => 32
  | .dropStation => 33
  | .getStation => 34
  | .listStations => 35
  | .putProfile => 40
  | .getProfile => 41
  | .dropProfile => 42
  | .enqueue => 48
  | .cancel => 49
  | .hold => 50
  | .release => 51
  | .stop => 52
  | .listOrders => 53
  | .jog => 56
  | .putWindow => 64
  | .dropWindow => 65
  | .getWindow => 66
  | .putGuard => 67
  | .dropGuard => 68
  | .getGuard => 69
  | .setOutputs => 70
  | .setCapture => 80
  | .readCaptures => 81
  | .ackNotices => 88
  | .resendNotices => 89

/-- The requests in the order of table 11-8. -/
def ReqCode.all : List ReqCode :=
  [.openSession, .closeSession, .ping, .identify, .linkStatus, .restart, .setAxis, .getAxis, .axisStatus,
   .clearFault, .home, .teach, .shift, .putStation, .dropStation, .getStation, .listStations, .putProfile,
   .getProfile, .dropProfile, .enqueue, .cancel, .hold, .release, .stop, .listOrders, .jog, .putWindow,
   .dropWindow, .getWindow, .putGuard, .dropGuard, .getGuard, .setOutputs, .setCapture, .readCaptures,
   .ackNotices, .resendNotices]

/-- The request a CODE byte names, if table 11-8 has it (R194). -/
def ReqCode.ofByte (b : Byte) : Option ReqCode := ReqCode.all.find? (fun c => c.code == b.toNat)

/-- The fields required whatever the others hold, in increasing id (table 11-8). -/
def ReqCode.required : ReqCode → List FieldId
  | .openSession => [.keepalive]
  | .setAxis => [.axis]
  | .getAxis => [.axis]
  | .axisStatus => [.axis]
  | .clearFault => [.axis]
  | .home => [.axis, .method, .qualifyDir, .datum, .timeLimit]
  | .teach => [.axis, .datum]
  | .shift => [.axis, .shift, .shiftMode]
  | .putStation => [.axis, .position, .station, .profile]
  | .dropStation => [.axis, .station]
  | .getStation => [.axis, .station]
  | .listStations => [.axis]
  | .putProfile => [.timeLimit, .profile, .settle, .slowDist, .cutDist, .windowDist, .approach, .takeupDist, .corrections]
  | .getProfile => [.profile]
  | .dropProfile => [.profile]
  | .enqueue => [.axis, .orderTag]
  | .cancel => [.axis]
  | .hold => [.axis]
  | .release => [.axis]
  | .stop => [.axis]
  | .listOrders => [.axis]
  | .jog => [.axis, .direction]
  | .putWindow => [.axis, .window, .lower, .upper]
  | .dropWindow => [.window]
  | .getWindow => [.window]
  | .putGuard => [.guard, .member, .stopAxis]
  | .dropGuard => [.guard]
  | .getGuard => [.guard]
  | .setOutputs => [.mask, .values]
  | .setCapture => [.axis, .captureMode]
  | .readCaptures => [.axis, .count]
  | .ackNotices => [.seq]
  | .closeSession | .ping | .identify | .linkStatus | .restart | .resendNotices => []

/-- The further fields of a request (table 11-8, in brackets or subject to a presence rule). -/
def ReqCode.optional : ReqCode → List FieldId
  | .linkStatus => [.clear]
  | .setAxis => [.role, .kind, .modulus, .countSense, .rotPolicy, .indexSpacing,
      .indexTol, .lineCheck, .stallTime, .restTime, .reversalGap, .senseLevel]
  | .home => [.seekDir, .fast]
  | .putStation => [.settle]
  | .listStations => [.first]
  | .enqueue => [.station, .profile, .settle, .target, .chain, .notify]
  | .cancel => [.orderTag, .all]
  | .stop => [.flush]
  | .listOrders => [.skip]
  | .jog => [.speed, .deadman]
  | .putWindow => [.output, .report, .limitRole]
  | _ => []

/-- Whether a field is a field of a request (R198). -/
def ReqCode.hasField (c : ReqCode) (f : FieldId) : Bool := c.required.contains f || c.optional.contains f

/-- Whether a number lies in a range, ends included (C00 section 4.3). -/
def within (lo hi v : Int) : Bool := decide (lo ≤ v) && decide (v ≤ hi)

/-- The range, or the set of codes, of a field in a request (tables 11-5 and 11-6, R195). -/
def FieldId.inRange (c : ReqCode) : FieldId → Int → Bool
  | .axis, v | .stopAxis, v => within 0 3 v
  | .keepalive, v => v == 0 || within 100 60000 v
  | .clear, v | .fast, v | .lineCheck, v | .notify, v | .flush, v => within 0 1 v
  | .role, v | .kind, v | .countSense, v | .senseLevel, v | .shiftMode, v | .chain, v | .speed, v => within 0 1 v
  | .rotPolicy, v | .method, v | .approach, v | .limitRole, v | .direction, v => within 0 2 v
  | .report, v | .captureMode, v => within 0 3 v
  | .seekDir, v | .qualifyDir, v => within 1 2 v
  | .modulus, v => within 16 16777215 v
  | .indexSpacing, v => v == 0 || within 4 16777215 v
  | .indexTol, v | .mask, v | .values, v => within 0 255 v
  | .stallTime, v => v == 0 || within 50 30000 v
  | .restTime, v => within 10 2000 v
  | .reversalGap, v => within 20 5000 v
  | .position, v | .datum, v | .target, v | .lower, v | .upper, v => within (-Config.maxPosition) Config.maxPosition v
  | .shift, v => within (-Config.maxShift) Config.maxShift v
  | .timeLimit, v => if c = .home then within 1 600 v else within 0 3600 v
  | .station, v | .first, v => within 1 999 v
  | .profile, v => within 0 15 v
  | .settle, v => within 0 30000 v
  | .slowDist, v => within 0 16777215 v
  | .cutDist, v => within 0 1048575 v
  | .windowDist, v => within 0 65535 v
  | .takeupDist, v => within 1 1048575 v
  | .corrections, v | .skip, v => within 0 7 v
  | .orderTag, v | .seq, v => within 1 65535 v
  | .all, v => v == 1
  | .deadman, v => within 50 5000 v
  | .window, v | .member, v => within 1 48 v
  | .output, v => within 0 8 v
  | .guard, v => within 1 12 v
  | .count, v => within 1 5 v
  | _, _ => true

end Sys2Proof.Machine
end

