-- ==== Sys2Proof/Machine/State.lean ====
section
/-! DEFINITION. The state of the SA-410: every piece of state the spec gives a block (C00 table 0-1; INVENTORY.md lists
each with its rule and its reset value), as plain data, and the state after reset. -/

namespace Sys2Proof.Machine

/-- A running timer (R199): its duration in milliseconds and the microseconds it has run. A timer that does not run is
absent. -/
structure Timer where
  duration : Nat
  elapsed : Nat
  deriving DecidableEq, Repr

/-- A keyed store: entries with rising keys (R41, R48, R124, R131). -/
abbrev Table (α : Type) := List (Nat × α)

/-! ### Counting Unit -/

/-- The twelve configuration values of an axis (table 1-1). -/
structure AxisConfig where
  role : Role
  kind : AxisKind
  modulus : Nat
  countSense : CountSense
  rotPolicy : RotPolicy
  indexSpacing : Nat
  indexTol : Nat
  lineCheck : Bool
  stallTime : Nat
  restTime : Nat
  reversalGap : Nat
  senseLevel : SenseLevel
  deriving DecidableEq, Repr

/-- The configuration after reset (table 1-1, last column; R5). -/
def AxisConfig.reset : AxisConfig where
  role := .watched
  kind := .linear
  modulus := 16777215
  countSense := .normal
  rotPolicy := .shortest
  indexSpacing := 0
  indexTol := 0
  lineCheck := false
  stallTime := 0
  restTime := 100
  reversalGap := 200
  senseLevel := .activeLow

/-- The input pins of an axis: the levels of A and B, the pairs found at the same level, and the filtered SENSE level
(true is high). -/
structure AxisPins where
  encoder : EncoderLevels
  mismatch : PairMismatch
  sense : Bool
  deriving DecidableEq, Repr

/-- The pins of an axis in the reset state: DESIGN CHOICE, notes/assumptions/7.md and 9.md. -/
def AxisPins.initial : AxisPins where
  encoder := ⟨false, false⟩
  mismatch := ⟨false, false, false⟩
  sense := true

/-- The fault record (R16), present from the first fault to CLEAR-FAULT. -/
structure FaultRecord where
  first : FaultKind
  time : Time
  count : Count
  later : List FaultKind
  deriving DecidableEq, Repr

/-- A Counting Unit (R6 to R16, R20, R38): raw count, last count direction (NONE is `none`), reference, base, shift,
index-check baseline, line-fault condition with its 1 ms timer and whether it has raised LINE, fault record. -/
structure CountingUnit where
  raw : Count
  lastDir : Option Dir
  reference : Reference
  base : Count
  shift : Int
  baseline : Option Count
  lineFault : Bool
  lineRaised : Bool
  lineTimer : Option Timer
  fault : Option FaultRecord
  deriving DecidableEq, Repr

/-- The Counting Unit after reset (R20); the line timer is set by the reset itself. -/
def CountingUnit.reset : CountingUnit where
  raw := 0
  lastDir := none
  reference := .unreferenced
  base := 0
  shift := 0
  baseline := none
  lineFault := false
  lineRaised := false
  lineTimer := none
  fault := none

/-! ### Stations, profiles, orders -/

/-- A station record without its key (table 3-1). -/
structure Station where
  position : Int
  profile : Nat
  settle : Option Nat
  deriving DecidableEq, Repr

/-- The eight fields of a DEFINED profile entry (table 3-2). -/
structure Profile where
  slow : Nat
  cut : Nat
  window : Nat
  approach : Approach
  takeup : Nat
  settle : Nat
  corrections : Nat
  timeLimit : Nat
  deriving DecidableEq, Repr

/-- Where an order goes (table 4-1): a station, with a PROFILE of its own or not, or a TARGET with its PROFILE. -/
inductive Destination where
  | station (number : Nat) (profile : Option Nat)
  | target (position : Int) (profile : Nat)
  deriving DecidableEq, Repr

/-- The fields of an order that it holds from its acceptance on (table 4-1). -/
structure Order where
  tag : Nat
  destination : Destination
  settle : Option Nat
  chain : Chain
  notify : Bool
  deriving DecidableEq, Repr

/-! ### Axis Controller -/

/-- The kind of leg run in SLOW (R79). -/
inductive LegKind where
  | normal | short
  deriving DecidableEq, Repr

/-- The substates of an approach with what each of them holds (table 5-1, R79). -/
inductive Substate where
  | takeup
  | fast
  | slow (kind : LegKind)
  | coast (rest : Timer)
  | settle (timer : Timer)
  | reversing (pending : Dir)
  deriving DecidableEq, Repr

/-- The active order record (table 4-1, R79): the order, the values resolved at its start and its approach state. `leg`
holds the approach direction A of the present or most recent leg; it is absent until a leg has begun, which is the
leg-begun flag of R79. -/
structure ActiveOrder where
  order : Order
  target : Int
  profileNo : Nat
  snapshot : Profile
  settle : Nat
  takeup : Bool
  corrections : Nat
  zones : List Zone
  moveLimit : Option Timer
  substate : Substate
  dir : Dir
  dist : Int
  leg : Option Dir
  deriving DecidableEq, Repr

/-- The substates of a homing run (table 2-3). -/
inductive HomingSubstate where
  | seek | onSwitch | awaitIndex
  deriving DecidableEq, Repr

/-- The homing record (table 2-2). The wanted pattern is computed (`Homing.wanted`). -/
structure Homing where
  method : Method
  seekDir : Option Dir
  qualify : Dir
  datum : Int
  fast : Bool
  substate : HomingSubstate
  limit : Timer
  deriving DecidableEq, Repr

/-- The jog record (table 6-2). -/
structure Jog where
  dir : Dir
  speed : Speed
  deadman : Timer
  pending : Bool
  deriving DecidableEq, Repr

/-- The motion state of an axis (R1, R58), with the record that is present exactly in that state. -/
inductive Motion where
  | idle
  | held
  | waiting
  | moving (active : ActiveOrder)
  | homing (run : Homing)
  | jogging (record : Jog)
  | faulted
  deriving DecidableEq, Repr

/-- The line pattern (R109): OFF, or one RUN line with HIGH or not. -/
inductive Lines where
  | off
  | run (dir : Dir) (high : Bool)
  deriving DecidableEq, Repr

/-- A RUN-off in the lockout record (R111); the lockout is in force while the timer runs. `spent` is how many microseconds
lay between the turn-off and the start of the running timer: 0, but for a timer that SET-AXIS restarted when the moment of
the new REVERSAL-GAP had passed (R112). -/
structure RunOff where
  line : Dir
  time : Time
  timer : Option Timer
  spent : Nat
  deriving DecidableEq, Repr

/-- A claim of the Window Monitor on its way to an Axis Controller (R130, R133, R134). -/
inductive Claim where
  | stop
  | limit (forbidden : Dir)
  | release
  deriving DecidableEq, Repr

/-! ### Capture Log -/

/-- A capture record (table 8-1). -/
structure Capture where
  number : Nat
  edge : Edge
  raw : Count
  position : Option Int
  time : Time
  orderTag : Option Nat
  overwrote : Bool
  deriving DecidableEq, Repr

/-- The Capture Log of an axis (R147, R150, R152). -/
structure CaptureLog where
  mode : CaptureMode
  ring : List Capture
  nextNumber : Nat
  deriving DecidableEq, Repr

/-- A Capture Log after reset (R148). -/
def CaptureLog.reset : CaptureLog where
  mode := .off
  ring := []
  nextNumber := 1

/-- One axis: its configuration and pins, Counting Unit, Axis Controller and Capture Log. `queue` holds the orders that
have not started; the active order, the head of the move queue of R57, stands in the motion state. -/
structure Axis where
  config : AxisConfig
  pins : AxisPins
  counting : CountingUnit
  motion : Motion
  queue : List Order
  holdPending : Bool
  lines : Lines
  lockout : Option RunOff
  stall : Option Timer
  claims : List Claim
  faultClaims : List FaultKind
  log : CaptureLog
  deriving DecidableEq, Repr

/-- An axis after reset, on given pins (R1, R5, R20, R35, R57, R111, R123, R148). A pair mismatched at the reset starts
the line timer at once (R20). -/
def Axis.reset (pins : AxisPins) : Axis where
  config := .reset
  pins := pins
  counting :=
    { CountingUnit.reset with
      lineTimer := if pins.mismatch.a || pins.mismatch.b || pins.mismatch.z then some ⟨Config.lineTime, 0⟩ else none }
  motion := .idle
  queue := []
  holdPending := false
  lines := .off
  lockout := none
  stall := none
  claims := []
  faultClaims := []
  log := .reset

/-! ### Table Store and Window Monitor -/

/-- The Table Store: stations keyed by 1000 times the axis number plus the station number, and the DEFINED profile
entries keyed by their number. -/
structure TableStore where
  stations : Table Station
  profiles : Table Profile
  deriving DecidableEq, Repr

/-- A window record (table 7-1). -/
structure Window where
  axis : AxisId
  lower : Int
  upper : Int
  output : Nat
  report : Report
  limitRole : LimitRole
  occupancy : Occupancy
  deriving DecidableEq, Repr

/-- A guard record (table 7-3). -/
structure Guard where
  members : List Nat
  stopAxes : List AxisId
  state : GuardState
  deriving DecidableEq, Repr

/-- The Window Monitor: the DEFINED windows and guards by number, and the host values of OUT1 (bit 0) to OUT8
(bit 7). -/
structure WindowMonitor where
  windows : Table Window
  guards : Table Guard
  hostValues : BitVec 8
  deriving DecidableEq, Repr

/-! ### Notice Queue -/

/-- The kinds of notices with their fields (table 9-2). -/
inductive NoticeBody where
  | startup (cause : Cause)
  | orderStarted (axis : AxisId) (tag : Nat) (target : Int) (dir : Option Dir) (takeup : Bool)
  | orderDone (axis : AxisId) (tag : Nat) (reason : Reason) (position : Option Int) (corrections : Nat)
  | zone (axis : AxisId) (tag : Nat) (zone : Zone)
  | homed (axis : AxisId) (position : Int)
  | homeFailed (axis : AxisId) (reason : Reason)
  | jogEnded (axis : AxisId) (reason : Reason)
  | fault (axis : AxisId) (kind : FaultKind) (raw : Count)
  | window (number : Nat) (crossing : Crossing) (position : Int)
  | guard (number : Nat) (state : GuardState)
  | captureWaiting (axis : AxisId)
  | linkLost (stopped : List AxisId) (lossTime : Time)
  | discarded (count : Nat)
  deriving DecidableEq, Repr

/-- A notice entry (table 9-1). -/
structure Notice where
  seq : Nat
  time : Time
  body : NoticeBody
  sent : Bool
  deriving DecidableEq, Repr

/-- The Notice Queue: its entries, oldest first, and the next sequence number (R157). -/
structure NoticeQueue where
  entries : List Notice
  nextSeq : Nat
  deriving DecidableEq, Repr

/-- The Notice Queue after a reset (R165). -/
def NoticeQueue.reset (cause : Cause) : NoticeQueue where
  entries := [⟨1, 0, .startup cause, false⟩]
  nextSeq := 2

/-! ### Link Port -/

/-- The receive framer with its gap timer and the bytes taken since LEN (R171, R172). -/
inductive Framer where
  | hunt
  | length (gap : Timer)
  | body (len : Byte) (taken : List Byte) (gap : Timer)
  deriving DecidableEq, Repr

/-- A complete frame, not yet checked: LEN, body and the two CRC bytes as received (R171, R173). -/
structure RxFrame where
  len : Byte
  body : List Byte
  crcHigh : Byte
  crcLow : Byte
  deriving DecidableEq, Repr

/-- A request in the intake (R174): REQUEST or RETRY, TAG, CODE and the field area. -/
structure Request where
  retry : Bool
  tag : Byte
  code : Byte
  area : List Byte
  deriving DecidableEq, Repr

/-- One field: its id and its value. -/
abbrev Field := FieldId × Int

/-- What a reply says (R179, R196): the result, the fields that stand alone, the groups of a list reply (each from its
leading field on) and the trailing fields. -/
structure Answer where
  result : Result
  alone : List Field
  groups : List (List Field)
  trailing : List Field
  deriving DecidableEq, Repr

/-- A reply, as it waits in the reply queue and stands in the reply cache (R177, R182). -/
structure Reply where
  tag : Byte
  answer : Answer
  deriving DecidableEq, Repr

/-- The frame on TXD: its bytes, and the time its transmission takes (R181). -/
structure TxFrame where
  bytes : List Byte
  timer : Timer
  deriving DecidableEq, Repr

/-- How far a RESTART has come (R191). -/
inductive RestartPhase where
  | none
  | replyWaiting
  | replySending
  deriving DecidableEq, Repr

/-- The four link counters (R175). -/
structure LinkCounters where
  crc : Nat
  gap : Nat
  format : Nat
  dropped : Nat
  deriving DecidableEq, Repr

/-- The Link Port (C10), and whether RESETN is held low (R192). -/
structure LinkPort where
  framer : Framer
  completed : List RxFrame
  intake : List Request
  replies : List Reply
  cache : List Reply
  transmitter : Option TxFrame
  session : Session
  keepalive : Option Timer
  counters : LinkCounters
  straps : Straps
  rate : Nat
  restart : RestartPhase
  resetnLow : Bool
  deriving DecidableEq, Repr

/-- The Link Port after a reset that reads the given straps, with RESETN still held low or not (R192). -/
def LinkPort.reset (straps : Straps) (held : Bool) : LinkPort where
  framer := .hunt
  completed := []
  intake := []
  replies := []
  cache := []
  transmitter := none
  session := .closed
  keepalive := none
  counters := ⟨0, 0, 0, 0⟩
  straps := straps
  rate := rateOf straps
  restart := .none
  resetnLow := held

/-! ### The part -/

/-- The state of the SA-410, with the microseconds since the timebase stepped last (R199; notes/assumptions/2.md), and the
commands that wait, first in, first out. -/
structure State where
  axes : Quad Axis
  tables : TableStore
  monitor : WindowMonitor
  notices : NoticeQueue
  link : LinkPort
  timebase : Time
  micros : Nat
  pending : List Instr
  deriving DecidableEq, Repr

/-- No command stops the SA-410: the spec gives every row an effect, and the faults of an axis are state (R16). -/
inductive Fault where
  deriving DecidableEq, Repr

/-- The reasons a command may be refused by the model itself; a request the SA-410 refuses is answered, not refused. -/
inductive Refusal where
  /-- A command without a meaning, raised by an arm of exec; safe. No arm raises it: every row has its meaning. -/
  | notModelled (mnemonic : String)
  deriving DecidableEq, Repr

/-- The machine after a power-up reset (R192) with nothing waiting. The levels of the input pins and of the straps are
the model's choice (notes/assumptions/7.md, 8.md, 9.md). -/
def State.reset : State where
  axes := ⟨.reset .initial, .reset .initial, .reset .initial, .reset .initial⟩
  tables := ⟨[], []⟩
  monitor := ⟨[], [], 0⟩
  notices := .reset .power
  link := .reset ⟨false, false⟩ false
  timebase := 0
  micros := 0
  pending := []

end Sys2Proof.Machine
end

