-- ==== Sys2Proof/Machine/Ops.lean ====
section
/-! DEFINITION. The shared operations over the state: timers and the clock, keyed stores, the four axes, offers to the
Notice Queue, claims to the Axis Controllers, and the order in which blocks take one event. -/

namespace Sys2Proof

/-- The number of an axis (C00 section 4.4). -/
def AxisId.num : AxisId → Nat
  | .axis0 => 0
  | .axis1 => 1
  | .axis2 => 2
  | .axis3 => 3

/-- The axis a checked AXIS or STOP-AXIS value names. -/
def AxisId.ofNum (v : Int) : AxisId :=
  if v = 0 then .axis0 else if v = 1 then .axis1 else if v = 2 then .axis2 else .axis3

/-- The axes in increasing number. -/
def AxisId.all : List AxisId := [.axis0, .axis1, .axis2, .axis3]

/-- What stands at an axis. -/
def Quad.get {α : Type} (q : Quad α) : AxisId → α
  | .axis0 => q.a0
  | .axis1 => q.a1
  | .axis2 => q.a2
  | .axis3 => q.a3

/-- Replace what stands at an axis. -/
def Quad.set {α : Type} (q : Quad α) (a : AxisId) (x : α) : Quad α :=
  match a with
  | .axis0 => { q with a0 := x }
  | .axis1 => { q with a1 := x }
  | .axis2 => { q with a2 := x }
  | .axis3 => { q with a3 := x }

/-- Apply a function to all four. -/
def Quad.map {α β : Type} (f : α → β) (q : Quad α) : Quad β := ⟨f q.a0, f q.a1, f q.a2, f q.a3⟩

/-- The four in increasing axis number. -/
def Quad.toList {α : Type} (q : Quad α) : List α := [q.a0, q.a1, q.a2, q.a3]

/-- The place of a block in the order used where a command's order does not name it: Axis Controllers by number, then
the Window Monitor, the Capture Log and the Link Port (notes/assumptions/6.md). -/
def Block.rank : Block → Nat
  | .axisController a => a.num
  | .windowMonitor => 4
  | .captureLog => 5
  | .linkPort => 6
  | .orderStart a => 7 + a.num

/-- Whether the first block takes the event before the second, by the order of a command. -/
def Block.before (x y : Block) : List Block → Bool
  | [] => decide (x.rank < y.rank)
  | b :: rest => if b = x then true else if b = y then false else Block.before x y rest

/-- The given blocks in the order of a command: those it names first, as it names them, then the others by rank. -/
def Block.arrange (order blocks : List Block) : List Block :=
  (order.filter (fun b => blocks.contains b)).eraseDups ++ blocks.filter (fun b => !order.contains b)

end Sys2Proof

namespace Sys2Proof.Machine

/-! ### Timers (R199) -/

/-- A timer of t ms, just started. -/
def Timer.start (t : Nat) : Timer := ⟨t, 0⟩

/-- The same timer started again for its full time. -/
def Timer.again (t : Timer) : Timer := { t with elapsed := 0 }

/-- The timer n microseconds later. -/
def Timer.advance (n : Nat) (t : Timer) : Timer := { t with elapsed := t.elapsed + n }

/-- Whether a timer of t ms has run for t ms. -/
def Timer.due (t : Timer) : Bool := decide (1000 * t.duration ≤ t.elapsed)

/-- Whether a timer of t ms may run n microseconds more unexpired: it expires before t + 1 ms after its start (R199). -/
def Timer.mayRun (n : Nat) (t : Timer) : Bool := decide (t.elapsed + n < 1000 * (t.duration + 1))

/-- How many microseconds pass before a timer of t ms expires, when it does so `late` microseconds behind t ms: at once,
when it has run so long already. -/
def Timer.wait (t : Timer) (late : Nat) : Nat := 1000 * t.duration + late - t.elapsed

/-! ### Keyed stores -/

/-- The entry with a key. -/
def Table.find {α : Type} (k : Nat) : Table α → Option α
  | [] => none
  | (j, v) :: rest => if j = k then some v else Table.find k rest

/-- Write the entry with a key, keeping the keys rising. -/
def Table.put {α : Type} (k : Nat) (v : α) : Table α → Table α
  | [] => [(k, v)]
  | (j, w) :: rest =>
    if k < j then (k, v) :: (j, w) :: rest else if k = j then (k, v) :: rest else (j, w) :: Table.put k v rest

/-- Remove the entry with a key. -/
def Table.drop {α : Type} (k : Nat) (t : Table α) : Table α := t.filter (fun e => e.1 != k)

/-- The canonical form: keys strictly rising, so that equal stores are equal data. -/
abbrev Table.wf {α : Type} (t : Table α) : Prop := t.Pairwise (fun x y => x.1 < y.1)

/-- The key of a station in the Station Pool: axis and station number (R41). -/
def stationKey (a : AxisId) (n : Nat) : Nat := 1000 * a.num + n

/-! ### Axes -/

/-- An axis of the part. -/
def State.axis (s : State) (a : AxisId) : Axis := s.axes.get a

/-- Replace an axis. -/
def State.setAxis (s : State) (a : AxisId) (x : Axis) : State := { s with axes := s.axes.set a x }

/-- Change an axis. -/
def State.modifyAxis (s : State) (a : AxisId) (f : Axis → Axis) : State := s.setAxis a (f (s.axis a))

/-- Replace the Table Store. -/
def State.setTables (s : State) (t : TableStore) : State := { s with tables := t }

/-- Replace the Window Monitor. -/
def State.setMonitor (s : State) (w : WindowMonitor) : State := { s with monitor := w }

/-- Replace the Notice Queue. -/
def State.setNotices (s : State) (q : NoticeQueue) : State := { s with notices := q }

/-- Replace the Link Port. -/
def State.setLink (s : State) (l : LinkPort) : State := { s with link := l }

/-! ### Offers to the Notice Queue (R158 to R160) -/

/-- The sequence number after another: 1 follows 65,535 (R157). -/
def nextNumber (n : Nat) : Nat := if Config.maxNumber ≤ n then 1 else n + 1

/-- Add 1, staying at 65,535 (R159, R175). -/
def saturate (n : Nat) : Nat := if Config.maxNumber ≤ n then Config.maxNumber else n + 1

/-- Whether a notice is the DISCARDED marker (R159). -/
def Notice.isMarker (n : Notice) : Bool :=
  match n.body with
  | .discarded _ => true
  | _ => false

/-- The ordinary notices held (R158). -/
def NoticeQueue.ordinary (q : NoticeQueue) : Nat := q.entries.countP (fun n => !n.isMarker)

/-- The SENT notices (R161). -/
def NoticeQueue.sentCount (q : NoticeQueue) : Nat := q.entries.countP (·.sent)

/-- A notice joins at the end with the next sequence number, UNSENT (R158). -/
def NoticeQueue.join (now : Time) (body : NoticeBody) (q : NoticeQueue) : NoticeQueue where
  entries := q.entries ++ [⟨q.nextSeq, now, body, false⟩]
  nextSeq := nextNumber q.nextSeq

/-- The COUNT of a marker rises by one, saturating; other notices stay (R159). -/
def Notice.countDiscard (n : Notice) : Notice :=
  match n.body with
  | .discarded c => { n with body := .discarded (saturate c) }
  | _ => n

/-- Offer a notice: it joins while fewer than 31 ordinary notices are held; otherwise it is discarded and counted in
the marker, which is made when there is none (R158, R159). -/
def NoticeQueue.offer (now : Time) (body : NoticeBody) (q : NoticeQueue) : NoticeQueue :=
  if q.ordinary < Config.ordinary then q.join now body
  else if q.entries.any (·.isMarker) then { q with entries := q.entries.map Notice.countDiscard }
  else q.join now (.discarded 1)

/-- Offer one notice now (R158, R167). -/
def State.offer (s : State) (body : NoticeBody) : State := s.setNotices (s.notices.offer s.timebase body)

/-- Offer notices in order. -/
def State.offers (s : State) (bodies : List NoticeBody) : State := bodies.foldl State.offer s

/-- Every SENT notice becomes UNSENT (R163, R164). -/
def NoticeQueue.unsend (q : NoticeQueue) : NoticeQueue :=
  { q with entries := q.entries.map (fun n => { n with sent := false }) }

/-- The notice presented to the transmitter: the oldest UNSENT one, while fewer than 8 are SENT (R161). -/
def NoticeQueue.presented (q : NoticeQueue) : Option Notice :=
  if q.sentCount < Config.sendWindow then q.entries.find? (fun n => !n.sent) else none

/-- The oldest UNSENT notice becomes SENT (R161). -/
def sendOldest : List Notice → List Notice
  | [] => []
  | n :: rest => if n.sent then n :: sendOldest rest else { n with sent := true } :: rest

/-! ### What a block does to one axis -/

/-- What an Axis Controller leaves: its axis, and the notices it offers, in order. -/
abbrev Taken := Axis × List NoticeBody

/-- An Axis Controller takes an event: the axis changes and the notices are offered. -/
def State.take (s : State) (a : AxisId) (f : Axis → Taken) : State :=
  (s.setAxis a (f (s.axis a)).1).offers (f (s.axis a)).2

/-- A claim is sent to the Axis Controller of an axis, behind those sent before (R133). -/
def State.send (s : State) (a : AxisId) (c : Claim) : State :=
  s.modifyAxis a (fun x => { x with claims := x.claims ++ [c] })

/-- Claims are sent in order. -/
def State.sends (s : State) (cs : List (AxisId × Claim)) : State := cs.foldl (fun t c => t.send c.1 c.2) s

/-! ### The clock (R199) -/

/-- The timers a substate holds, n microseconds later. -/
def Substate.advance (n : Nat) : Substate → Substate
  | .coast t => .coast (t.advance n)
  | .settle t => .settle (t.advance n)
  | .takeup => .takeup
  | .fast => .fast
  | .slow k => .slow k
  | .reversing d => .reversing d

/-- The timers of a motion state, n microseconds later. -/
def Motion.advance (n : Nat) : Motion → Motion
  | .moving o => .moving { o with moveLimit := o.moveLimit.map (Timer.advance n), substate := o.substate.advance n }
  | .homing h => .homing { h with limit := h.limit.advance n }
  | .jogging j => .jogging { j with deadman := j.deadman.advance n }
  | .idle => .idle
  | .held => .held
  | .waiting => .waiting
  | .faulted => .faulted

/-- The timers of an axis, n microseconds later. -/
def Axis.advance (n : Nat) (x : Axis) : Axis :=
  { x with
    counting := { x.counting with lineTimer := x.counting.lineTimer.map (Timer.advance n) }
    motion := x.motion.advance n
    lockout := x.lockout.map (fun r => { r with timer := r.timer.map (Timer.advance n) })
    stall := x.stall.map (Timer.advance n) }

/-- The gap timer of the framer, n microseconds later. -/
def Framer.advance (n : Nat) : Framer → Framer
  | .hunt => .hunt
  | .length g => .length (g.advance n)
  | .body len taken g => .body len taken (g.advance n)

/-- The timers of the Link Port, n microseconds later. -/
def LinkPort.advance (n : Nat) (l : LinkPort) : LinkPort :=
  { l with
    framer := l.framer.advance n
    keepalive := l.keepalive.map (Timer.advance n)
    transmitter := l.transmitter.map (fun f => { f with timer := f.timer.advance n }) }

/-- n microseconds pass: the timebase steps at each full millisecond, every running timer advances, and nothing else
changes (R199). -/
def State.advance (n : Nat) (s : State) : State :=
  { s with
    axes := s.axes.map (Axis.advance n)
    link := s.link.advance n
    timebase := s.timebase + BitVec.ofNat 32 ((s.micros + n) / 1000)
    micros := (s.micros + n) % 1000 }

/-- The timers a substate holds. -/
def Substate.timers : Substate → List Timer
  | .coast t => [t]
  | .settle t => [t]
  | .takeup | .fast | .slow _ | .reversing _ => []

/-- The timers of a motion state. -/
def Motion.timers : Motion → List Timer
  | .moving o => o.moveLimit.toList ++ o.substate.timers
  | .homing h => [h.limit]
  | .jogging j => [j.deadman]
  | .idle | .held | .waiting | .faulted => []

/-- The running timers of an axis. -/
def Axis.timers (x : Axis) : List Timer :=
  x.counting.lineTimer.toList ++ x.motion.timers ++ (x.lockout.bind RunOff.timer).toList ++ x.stall.toList

/-- The gap timer of the framer, which runs in LENGTH and BODY (R172). -/
def Framer.gap : Framer → Option Timer
  | .hunt => none
  | .length g => some g
  | .body _ _ g => some g

/-- The running timers of the Link Port. -/
def LinkPort.timers (l : LinkPort) : List Timer :=
  l.framer.gap.toList ++ l.keepalive.toList ++ (l.transmitter.map TxFrame.timer).toList

/-- Every running timer of the part (R199). -/
def State.timers (s : State) : List Timer := AxisId.all.flatMap (fun a => (s.axis a).timers) ++ s.link.timers

/-- Whether n microseconds may pass before the next event: every running timer may run so long unexpired (R199). -/
def State.mayRun (s : State) (n : Nat) : Bool := n == 0 || s.timers.all (Timer.mayRun n)

/-- The clock runs on to the expiry of a timer (notes/assumptions/2.md). -/
def State.runTo (s : State) (t : Timer) (late : Nat) : State := s.advance (t.wait late)

end Sys2Proof.Machine
end

