-- ==== Sys2Proof/Machine/Flags.lean ====
section
/-! DEFINITION. What is read off the state: the position of an axis, the SENSE state, the direction lockout, the codes
of the reported states, the limit question, the guards that name an axis, and the outputs. -/

namespace Sys2Proof.Machine

/-! ### Position and SENSE -/

/-- The position formed from raw count, base and shift (R8): the raw count and the base added in 32-bit wrapping
arithmetic, the shift added to that sum, and on a ROTARY axis the result reduced modulo M. -/
def Axis.formed (x : Axis) : Int :=
  let sum := (x.counting.raw + x.counting.base).toInt + x.counting.shift
  match x.config.kind with
  | .linear => sum
  | .rotary => sum % x.config.modulus

/-- The position, which exists while the axis is REFERENCED (R8). -/
def Axis.position (x : Axis) : Option Int :=
  match x.counting.reference with
  | .unreferenced => none
  | .referenced => some x.formed

/-- A number reduced as positions of the axis are: modulo M on a ROTARY axis (R9, R31). -/
def Axis.reduce (x : Axis) (v : Int) : Int :=
  match x.config.kind with
  | .linear => v
  | .rotary => v % x.config.modulus

/-- Whether a position value lies in the linear position range (R8). -/
def inPositionRange (v : Int) : Bool := within (-Config.maxPosition) Config.maxPosition v

/-- SENSE is active: low with ACTIVE-LOW, high with ACTIVE-HIGH (R11). -/
def Axis.senseActive (x : Axis) : Bool :=
  match x.config.senseLevel with
  | .activeLow => !x.pins.sense
  | .activeHigh => x.pins.sense

/-- The filtered SENSE level of an axis becomes high or low (R11). -/
def Axis.senseLevel (high : Bool) (x : Axis) : Axis := { x with pins := { x.pins with sense := high } }

/-- Whether a pair is mismatched (R12). -/
def PairMismatch.any (m : PairMismatch) : Bool := m.a || m.b || m.z

/-- Whether the axis is DRIVEN (R1). -/
def Axis.driven (x : Axis) : Bool := decide (x.config.role = .driven)

/-! ### Lines and lockout -/

/-- The direction of the RUN line that is on. -/
def Lines.dir : Lines → Option Dir
  | .off => none
  | .run d _ => some d

/-- Whether HIGH is on. -/
def Lines.high : Lines → Bool
  | .off => false
  | .run _ h => h

/-- The LINES code (table 11-6). -/
def Lines.code : Lines → Nat
  | .off => 0
  | .run .positive false => 1
  | .run .positive true => 2
  | .run .negative false => 3
  | .run .negative true => 4

/-- Whether the direction lockout permits the RUN line of a direction (R111): it does unless a RUN-off of the opposite
line is recorded and its timer runs. -/
def Axis.permits (x : Axis) (d : Dir) : Bool :=
  match x.lockout with
  | none => true
  | some r => r.timer.isNone || decide (r.line = d)

/-! ### Motion state -/

/-- The MOTION code (table 11-6). -/
def Motion.code : Motion → Nat
  | .idle => 0
  | .held => 1
  | .waiting => 2
  | .moving _ => 3
  | .homing _ => 4
  | .jogging _ => 5
  | .faulted => 6

/-- Whether the axis is in motion: MOVING, HOMING or JOGGING (R22, R187). -/
def Motion.inMotion : Motion → Bool
  | .moving _ | .homing _ | .jogging _ => true
  | .idle | .held | .waiting | .faulted => false

/-- Whether the axis is HOMING. -/
def Motion.isHoming : Motion → Bool
  | .homing _ => true
  | _ => false

/-- Whether the axis is FAULTED. -/
def Motion.isFaulted : Motion → Bool
  | .faulted => true
  | _ => false

/-- The active order record of a MOVING axis. -/
def Motion.active : Motion → Option ActiveOrder
  | .moving o => some o
  | _ => none

/-- The SUBSTATE code of a homing substate (table 11-6). -/
def HomingSubstate.code : HomingSubstate → Nat
  | .seek => 7
  | .onSwitch => 8
  | .awaitIndex => 9

/-- The SUBSTATE code of an approach substate (table 11-6). -/
def Substate.code : Substate → Nat
  | .takeup => 1
  | .fast => 2
  | .slow _ => 3
  | .coast _ => 4
  | .settle _ => 5
  | .reversing _ => 6

/-- The SUBSTATE code of an axis; NONE outside MOVING and HOMING (table 1-2). -/
def Motion.substateCode : Motion → Nat
  | .moving o => o.substate.code
  | .homing h => h.substate.code
  | _ => 0

/-- The move queue of R57, oldest first: the active order is its head. -/
def Axis.moveQueue (x : Axis) : List Order :=
  match x.motion with
  | .moving o => o.order :: x.queue
  | _ => x.queue

/-- The tag of the active order, while MOVING (table 1-2, R150). -/
def Axis.activeTag (x : Axis) : Option Nat := x.motion.active.map (fun o => o.order.tag)

/-- Whether a start of the head order is due: the axis is IDLE with a non-empty queue (R58, R62;
notes/assumptions/5.md). -/
def Axis.startDue (x : Axis) : Bool := decide (x.motion = .idle) && !x.queue.isEmpty

/-- The PROFILE field an order carries, if it carries one (table 4-1). -/
def Order.profile (o : Order) : Option Nat :=
  match o.destination with
  | .station _ p => p
  | .target _ p => some p

/-! ### Windows and guards -/

/-- The limit question (R129): does an OCCUPIED window of the axis carry a limit role against the direction? -/
def WindowMonitor.limitAgainst (w : WindowMonitor) (a : AxisId) (d : Dir) : Bool :=
  w.windows.any (fun e => decide (e.2.axis = a) && decide (e.2.occupancy = .occupied)
    && decide (e.2.limitRole.forbids = some d))

/-- Whether a TRIPPED guard names the axis in its stop-axis list (R134). -/
def WindowMonitor.guarded (w : WindowMonitor) (a : AxisId) : Bool :=
  w.guards.any (fun e => decide (e.2.state = .tripped) && e.2.stopAxes.contains a)

/-- The set that holds one output: bit 0 for OUT1 to bit 7 for OUT8; OUTPUT 0 names none (R195). -/
def outputBit (n : Nat) : BitVec 8 := if n = 0 then 0 else (1 : BitVec 8) <<< (n - 1)

/-- The set of outputs named by the windows that pass a test. -/
def WindowMonitor.outputsOf (w : WindowMonitor) (p : Window → Bool) : BitVec 8 :=
  w.windows.foldl (fun acc e => if p e.2 then acc ||| outputBit e.2.output else acc) 0

/-- The window-owned outputs: those a DEFINED window names (R144). -/
def WindowMonitor.owned (w : WindowMonitor) : BitVec 8 := w.outputsOf (fun _ => true)

/-- The outputs that are on: window-owned ones by an OCCUPIED window that names them, host-owned ones by their host
value (R144, R145). -/
def WindowMonitor.on (w : WindowMonitor) : BitVec 8 :=
  w.outputsOf (fun v => decide (v.occupancy = .occupied)) ||| (w.hostValues &&& ~~~w.owned)

/-- Whether any axis is MOVING, HOMING or JOGGING (R187). -/
def State.anyInMotion (s : State) : Bool := AxisId.all.any (fun a => (s.axis a).motion.inMotion)

end Sys2Proof.Machine
end

