-- ==== Sys2Proof/Machine/Captures.lean ====
section
/-! DEFINITION. The Capture Log takes a SENSE edge (C08): the record, the ring and the CAPTURE-WAITING notice. -/

namespace Sys2Proof.Machine

/-- The record of an edge (R150, table 8-1). -/
def Axis.captureRecord (now : Time) (e : Edge) (x : Axis) : Capture where
  number := x.log.nextNumber
  edge := e
  raw := x.counting.raw
  position := x.position
  time := now
  orderTag := x.activeTag
  overwrote := decide (Config.ring ≤ x.log.ring.length)

/-- A record enters the ring (R152): the oldest leaves a full ring. -/
def ringWith (ring : List Capture) (r : Capture) : List Capture :=
  (if ring.length < Config.ring then ring else ring.tail) ++ [r]

/-- The Capture Log takes a SENSE edge (R149, R150, R152, R153). -/
def Axis.capture (a : AxisId) (now : Time) (active : Bool) (x : Axis) : Taken :=
  let e : Edge := if active then .rise else .fall
  if x.log.mode.records e && !x.motion.isHoming then
    ({ x with
        log :=
          { x.log with
            ring := ringWith x.log.ring (x.captureRecord now e)
            nextNumber := nextNumber x.log.nextNumber } },
      if x.log.ring.isEmpty then [.captureWaiting a] else [])
  else (x, [])

/-- A SENSE edge reaches the Capture Log of an axis (R149 to R151). -/
def State.logSense (s : State) (a : AxisId) (active : Bool) : State := s.take a (Axis.capture a s.timebase active)

end Sys2Proof.Machine
end

