-- ==== Sys2Proof/Machine/DriveLines.lean ====
section
/-! DEFINITION. The drive lines of an axis: the acts of R109, the lockout record of R111 and the stall timer of R15. -/

namespace Sys2Proof.Machine

/-- The stall timer a turn-on starts: on a DRIVEN axis with STALL-TIME not 0 (R15). -/
def Axis.newStall (x : Axis) : Option Timer :=
  if x.driven && x.config.stallTime != 0 then some (Timer.start x.config.stallTime) else none

/-- Turn on: one RUN line turns on, with or without HIGH, while both RUN lines are off; the stall timer starts
(R109, R15). -/
def Axis.turnOn (d : Dir) (high : Bool) (x : Axis) : Axis :=
  { x with lines := .run d high, stall := x.newStall }

/-- Speed change: HIGH turns on or off while the RUN line stays on; the stall timer runs on (R109). -/
def Axis.setHigh (high : Bool) (x : Axis) : Axis :=
  match x.lines with
  | .off => x
  | .run d _ => { x with lines := .run d high }

/-- Turn off: the RUN line that is on and HIGH turn off together, the stall timer stops, and the RUN-off is entered in
the lockout record, whose timer starts; lines already off change nothing (R109, R111, R15). -/
def Axis.turnOff (now : Time) (x : Axis) : Axis :=
  match x.lines with
  | .off => x
  | .run d _ =>
    { x with
      lines := .off
      stall := none
      lockout := some ⟨d, now, some (Timer.start x.config.reversalGap), 0⟩ }

/-- The lockout ceases to be in force; the record stays (R112). -/
def Axis.endLockout (x : Axis) : Axis :=
  { x with lockout := x.lockout.map (fun r => { r with timer := none, spent := 0 }) }

/-- A RUN-off in force under a new REVERSAL-GAP: the timer now expires at the turn-off plus the new gap, which is measured
from the turn-off whatever gaps came between; when that moment has passed, it expires within 1 ms from now (R2, R112). -/
def RunOff.withGap (gap : Nat) (r : RunOff) : RunOff :=
  match r.timer with
  | none => r
  | some t =>
    let since := r.spent + t.elapsed
    { r with timer := some ⟨gap, min since (1000 * gap)⟩, spent := since - 1000 * gap }

/-- A change of REVERSAL-GAP while the lockout is in force (R112). -/
def Axis.changeGap (gap : Nat) (x : Axis) : Axis := { x with lockout := x.lockout.map (RunOff.withGap gap) }

/-- A count event restarts the stall timer (R15). -/
def Axis.restartStall (x : Axis) : Axis := { x with stall := x.stall.map Timer.again }

end Sys2Proof.Machine
end

