-- ==== Sys2Proof/Machine/Endings.lean ====
section
/-! DEFINITION. How an order, a homing run and a jog end: the shared acts of R70, R32, R33 and R119, which STOP, CANCEL,
guard, limit, fault and link-loss claims and the timers all go through. -/

namespace Sys2Proof.Machine

/-- The motion state after an operation has failed or a jog has ended: FAULTED for a fault kind, HELD otherwise
(R70, R33, R119, R17). -/
def Reason.motionAfter (why : Reason) : Motion := if why.isFault then .faulted else .held

/-- The motion state after the active order has ended (R70): after ARRIVED (reason NONE) with CHAIN CONTINUE and the
hold-pending flag 0, IDLE; after ARRIVED otherwise, HELD; after a failure, HELD or FAULTED. -/
def ActiveOrder.motionAfter (o : ActiveOrder) (why : Reason) (holdPending : Bool) : Motion :=
  if why = .none then (if o.order.chain = .continue_ ∧ holdPending = false then .idle else .held)
  else why.motionAfter

/-- End of the active order (R70): lines off, timers stopped, the order gone from the queue, ORDER-DONE offered, the
motion state set. The flag is cleared on entry into HELD or FAULTED, and is 0 on entry into IDLE. -/
def Axis.endOrder (a : AxisId) (now : Time) (o : ActiveOrder) (why : Reason) (x : Axis) : Taken :=
  ({ x.turnOff now with stall := none, motion := o.motionAfter why x.holdPending, holdPending := false },
    [.orderDone a o.order.tag why x.position o.corrections])

/-- The ORDER-DONE notice of an order that ends without having started (R68, R72). -/
def Axis.unstartedDone (a : AxisId) (why : Reason) (x : Axis) (o : Order) : NoticeBody :=
  .orderDone a o.tag why x.position 0

/-- A homing run fails (R32, R33, R17): lines off, record discarded with its limit timer and its pending pattern,
HOME-FAILED offered, HELD or FAULTED, flag cleared. -/
def Axis.failHoming (a : AxisId) (now : Time) (why : Reason) (x : Axis) : Taken :=
  ({ x.turnOff now with stall := none, motion := why.motionAfter, holdPending := false }, [.homeFailed a why])

/-- A jog ends (R119): lines off with a RUN-off when a RUN line was on, record discarded with its deadman timer,
JOG-ENDED offered, HELD or FAULTED. -/
def Axis.endJog (a : AxisId) (now : Time) (why : Reason) (x : Axis) : Taken :=
  ({ x.turnOff now with stall := none, motion := why.motionAfter, holdPending := false }, [.jogEnded a why])

/-- Whatever operation is in flight ends with a reason; an axis without one is left as it is. -/
def Axis.endOperation (a : AxisId) (now : Time) (why : Reason) (x : Axis) : Taken :=
  match x.motion with
  | .moving o => x.endOrder a now o why
  | .homing _ => x.failHoming a now why
  | .jogging _ => x.endJog a now why
  | .idle | .held | .waiting | .faulted => (x, [])

/-- The Axis Controller takes a fault claim (R17): the operation in flight fails with the fault kind, and in every case
the axis is FAULTED with the flag cleared and the queue kept. -/
def Axis.takeFault (a : AxisId) (now : Time) (k : FaultKind) (x : Axis) : Taken :=
  let r := x.endOperation a now k.reason
  ({ r.1 with motion := .faulted, holdPending := false }, r.2)

/-- A fault is entered in the fault record, with its FAULT notice when the kind is new to it (R16). -/
def Axis.recordFault (a : AxisId) (now : Time) (k : FaultKind) (x : Axis) : Taken :=
  match x.counting.fault with
  | none =>
    ({ x with counting := { x.counting with fault := some ⟨k, now, x.counting.raw, []⟩ } },
      [.fault a k x.counting.raw])
  | some r =>
    if k = r.first ∨ k ∈ r.later then (x, [])
    else
      ({ x with counting := { x.counting with fault := some { r with later := r.later ++ [k] } } },
        [.fault a k x.counting.raw])

end Sys2Proof.Machine
end

