-- ==== Sys2Proof/Machine/ApproachEngine.lean ====
section
/-! DEFINITION. The approach engine (C05): direction and distance at a leg start, the beginning of a leg, what a position
change does in each substate, and the judgement at rest. `limited` is the answer of the Window Monitor to the limit
question for each direction (R129). -/

namespace Sys2Proof.Machine

/-- What a leg start sets first (R83): the approach direction A and the remaining distance d. -/
structure Aim where
  dir : Dir
  dist : Int
  deriving DecidableEq, Repr

/-- A and d on a LINEAR axis (R81). -/
def aimLinear (side : Approach) (p t : Int) : Aim :=
  match side with
  | .either => if p ≤ t then ⟨.positive, t - p⟩ else ⟨.negative, p - t⟩
  | .fromBelow => ⟨.positive, t - p⟩
  | .fromAbove => ⟨.negative, p - t⟩

/-- The approach direction on a ROTARY axis (R82), from the forward distance f and the reverse distance g. -/
def rotaryDir (side : Approach) (policy : RotPolicy) (f g : Int) : Dir :=
  match side with
  | .fromBelow => .positive
  | .fromAbove => .negative
  | .either =>
    match policy with
    | .forward => .positive
    | .reverse => .negative
    | .shortest => if f ≤ g then .positive else .negative

/-- d on a ROTARY axis (R82): inside the window, the shorter of f and g, counted against A when the shorter way runs
against A; outside, the distance in direction A. -/
def rotaryDist (w : Int) (dir : Dir) (f g : Int) : Int :=
  let o := min f g
  if o ≤ w then
    (if f = g then o
     else if f < g then (match dir with | .positive => o | .negative => -o)
     else (match dir with | .positive => -o | .negative => o))
  else (match dir with | .positive => f | .negative => g)

/-- A and d on a ROTARY axis (R82). -/
def aimRotary (side : Approach) (policy : RotPolicy) (m w p t : Int) : Aim :=
  let f := (t - p) % m
  let g := (m - f) % m
  let dir := rotaryDir side policy f g
  ⟨dir, rotaryDist w dir f g⟩

/-- A and d at a leg start from position p to target t with a profile (R83 step 1). -/
def AxisConfig.aim (c : AxisConfig) (pr : Profile) (p t : Int) : Aim :=
  match c.kind with
  | .linear => aimLinear pr.approach p t
  | .rotary => aimRotary pr.approach c.rotPolicy c.modulus pr.window p t

/-- Inside the window: d lies within -W to +W (R80). -/
def insideWindow (pr : Profile) (d : Int) : Bool := within (-(pr.window : Int)) pr.window d

/-- What a leg start finds to do (R83 steps 2 to 4): settle, or run a leg in a direction with HIGH or not, and the
substate it enters when its lines turn on. -/
inductive Leg where
  | settle
  | run (dir : Dir) (high : Bool) (substate : Substate)
  deriving DecidableEq, Repr

/-- The leg of a leg start (R83, R84): a take-up runs against A when a one-sided LINEAR approach is beyond the window,
with HIGH when S is not 0 and U - d is greater than S; an approach leg is SHORT, FAST or SLOW. That a leg behind a take-up
which ends within C of the target is SHORT, by step 4 of R83 and against its last sentence, is the model's choice
(notes/assumptions/29.md). -/
def planLeg (kind : AxisKind) (pr : Profile) (corrections : Nat) (aim : Aim) : Leg :=
  if insideWindow pr aim.dist then .settle
  else if kind = .linear ∧ pr.approach ≠ .either ∧ aim.dist < -(pr.window : Int) then
    .run aim.dir.opposite (pr.slow != 0 && decide ((pr.slow : Int) < pr.takeup - aim.dist)) .takeup
  else if 0 < corrections ∨ aim.dist ≤ pr.cut then .run aim.dir false (.slow .short)
  else if pr.slow ≠ 0 ∧ (pr.slow : Int) < aim.dist then .run aim.dir true .fast
  else .run aim.dir false (.slow .normal)

/-- Report a zone (R97): with NOTIFY 1, the first time the order reaches it. -/
def ActiveOrder.report (a : AxisId) (z : Zone) (o : ActiveOrder) : ActiveOrder × List NoticeBody :=
  if o.order.notify && !o.zones.contains z then
    ({ o with zones := o.zones ++ [z] }, [.zone a o.order.tag z])
  else (o, [])

/-- Enter SETTLE with the lines as they are: the settle timer starts from the full time, and WINDOW-ENTERED is reported
(R91). -/
def Axis.enterSettle (a : AxisId) (o : ActiveOrder) (x : Axis) : Taken :=
  let r := o.report a .windowEntered
  ({ x with motion := .moving { r.1 with substate := .settle (Timer.start o.settle) } }, r.2)

/-- Enter COAST: the rest timer starts (R90); PASSED is reported when the axis is beyond the window (R91, R97). -/
def Axis.enterCoast (a : AxisId) (o : ActiveOrder) (x : Axis) : Taken :=
  let r := if o.dist < -(o.snapshot.window : Int) then o.report a .passed else (o, [])
  ({ x with motion := .moving { r.1 with substate := .coast (Timer.start x.config.restTime) } }, r.2)

/-- Turn a leg on (R84): the limit question, then the lockout, then the lines, with which the leg has begun in the
approach direction held. SLOW-ENTERED is reported when the leg enters SLOW (R97). -/
def Axis.beginLeg (a : AxisId) (now : Time) (limited : Dir → Bool) (o : ActiveOrder) (d : Dir) (high : Bool)
    (sub : Substate) (x : Axis) : Taken :=
  if limited d then x.endOrder a now o .limited
  else if !x.permits d then ({ x with motion := .moving { o with substate := .reversing d } }, [])
  else
    let r :=
      match sub with
      | .slow _ => o.report a .slowEntered
      | _ => (o, [])
    ({ x.turnOn d high with motion := .moving { r.1 with substate := sub, leg := some o.dir } }, r.2)

/-- A leg start from position p (R83). -/
def Axis.legStart (a : AxisId) (now : Time) (limited : Dir → Bool) (p : Int) (o : ActiveOrder) (x : Axis) : Taken :=
  let aim := x.config.aim o.snapshot p o.target
  let o := { o with dir := aim.dir, dist := aim.dist }
  match planLeg x.config.kind o.snapshot o.corrections aim with
  | .settle => x.enterSettle a o
  | .run d high sub => x.beginLeg a now limited o d high sub

/-- The position the Axis Controller works with. While the axis is REFERENCED it is the position of the Counting Unit;
between a counting fault and the taking of its claim it is the position d still stands for (R80, R103;
notes/assumptions/12.md). -/
def Axis.knownPosition (o : ActiveOrder) (x : Axis) : Int :=
  match x.position with
  | some p => p
  | none => x.reduce (o.target - o.dir.sign * o.dist)

/-- The cut of a normal leg (R88): RUN off, CUT-ENTERED, then SETTLE inside the window or COAST outside it. -/
def Axis.cut (a : AxisId) (now : Time) (o : ActiveOrder) (x : Axis) : Taken :=
  let r := o.report a .cutEntered
  let x := x.turnOff now
  let e := if insideWindow o.snapshot o.dist then x.enterSettle a r.1 else x.enterCoast a r.1
  (e.1, r.2 ++ e.2)

/-- A position change in SLOW, or in FAST after HIGH has turned off (R88, R89, R92). `o` holds the new d. -/
def Axis.slowMoved (a : AxisId) (now : Time) (k : LegKind) (o : ActiveOrder) (x : Axis) : Taken :=
  match k with
  | .normal =>
    if o.dist ≤ o.snapshot.cut then x.cut a now o
    else ({ x with motion := .moving { o with substate := .slow .normal } }, [])
  | .short =>
    if insideWindow o.snapshot o.dist then (x.turnOff now).enterSettle a o
    else ({ x with motion := .moving { o with substate := .slow .short } }, [])

/-- A position change in FAST (R87, R92). -/
def Axis.fastMoved (a : AxisId) (now : Time) (o : ActiveOrder) (x : Axis) : Taken :=
  if o.dist ≤ o.snapshot.slow then
    let r := o.report a .slowEntered
    let e := (x.setHigh false).slowMoved a now .normal r.1
    (e.1, r.2 ++ e.2)
  else ({ x with motion := .moving o }, [])

/-- A position change in TAKEUP (R86): at the take-up point the lines turn off and a leg start is taken; before it, HIGH
turns off once the distance still to run is S or less. -/
def Axis.takeupMoved (a : AxisId) (now : Time) (limited : Dir → Bool) (o : ActiveOrder) (x : Axis) : Taken :=
  if (o.snapshot.takeup : Int) ≤ o.dist then
    (x.turnOff now).legStart a now limited (x.knownPosition o) o
  else if x.lines.high && decide ((o.snapshot.takeup : Int) - o.dist ≤ o.snapshot.slow) then
    ({ x.setHigh false with motion := .moving o }, [])
  else ({ x with motion := .moving o }, [])

/-- A position change in COAST (R90). -/
def Axis.coastMoved (a : AxisId) (o : ActiveOrder) (x : Axis) : Taken :=
  if insideWindow o.snapshot o.dist then x.enterSettle a o
  else if o.dist < -(o.snapshot.window : Int) then
    let r := o.report a .passed
    ({ x with motion := .moving r.1 }, r.2)
  else ({ x with motion := .moving o }, [])

/-- A position change in SETTLE (R91). -/
def Axis.settleMoved (a : AxisId) (o : ActiveOrder) (x : Axis) : Taken :=
  if insideWindow o.snapshot o.dist then ({ x with motion := .moving o }, []) else x.enterCoast a o

/-- The Axis Controller takes a position change by one count (R80): d moves by one, and the substate acts. An axis that
is not MOVING does nothing with it. -/
def Axis.positionMoved (a : AxisId) (now : Time) (limited : Dir → Bool) (dir : Dir) (x : Axis) : Taken :=
  match x.motion with
  | .moving o =>
    let o := { o with dist := if dir = o.dir then o.dist - 1 else o.dist + 1 }
    match o.substate with
    | .takeup => x.takeupMoved a now limited o
    | .fast => x.fastMoved a now o
    | .slow k => x.slowMoved a now k o
    | .coast _ => x.coastMoved a o
    | .settle _ => x.settleMoved a o
    | .reversing _ => ({ x with motion := .moving o }, [])
  | .idle | .held | .waiting | .homing _ | .jogging _ | .faulted => (x, [])

/-- The Axis Controller takes a count event (R15, R90): the stall timer and, in COAST, the rest timer start again; the
rest timer takes the REST-TIME configured now. -/
def Axis.countEvent (x : Axis) : Axis :=
  let y := x.restartStall
  match y.motion with
  | .moving o =>
    match o.substate with
    | .coast _ => { y with motion := .moving { o with substate := .coast (Timer.start y.config.restTime) } }
    | .takeup | .fast | .slow _ | .settle _ | .reversing _ => y
  | .idle | .held | .waiting | .homing _ | .jogging _ | .faulted => y

/-- The judgement at rest (R93 to R95): with a correction left it is counted and a leg start is taken; otherwise the
order fails SHORT or OVERSHOOT. -/
def Axis.judgeRest (a : AxisId) (now : Time) (limited : Dir → Bool) (o : ActiveOrder) (x : Axis) : Taken :=
  if insideWindow o.snapshot o.dist then (x, [])
  else if o.corrections < o.snapshot.corrections then
    x.legStart a now limited (x.knownPosition o) { o with corrections := o.corrections + 1 }
  else x.endOrder a now o (if (o.snapshot.window : Int) < o.dist then .short else .overshoot)

end Sys2Proof.Machine
end

