-- ==== Sys2Proof/Machine/Operands.lean ====
section
/-! DEFINITION. The operands of a request: how its field area is read (R194, R195), the general checks (R178), and how a
request is executed, answered and cached (R176, R177, R179, R182, R183). -/

namespace Sys2Proof.Machine

/-! ### Reading the field area -/

/-- An unsigned number from its bytes, low byte first (table 11-4). -/
def littleEndian : List Byte → Nat
  | [] => 0
  | b :: rest => b.toNat + 256 * littleEndian rest

/-- The integer a field's bytes carry (R195). -/
def FieldId.decode (f : FieldId) (bytes : List Byte) : Int :=
  if f.signed then (BitVec.ofNat (8 * f.size) (littleEndian bytes)).toInt else (littleEndian bytes : Int)

/-- What reading a field area gives: its fields in the order of the body, or the id of the first bad field. -/
inductive Parsed where
  | good (fields : List Field)
  | bad (id : Nat)
  deriving DecidableEq, Repr

/-- Put a field in front of what was read behind it. -/
def Parsed.cons (f : Field) : Parsed → Parsed
  | .good fs => .good (f :: fs)
  | .bad id => .bad id

/-- The field of a request that an id byte names (R198). -/
def ReqCode.fieldOf (c : ReqCode) (id : Byte) : Option FieldId :=
  (c.required ++ c.optional).find? (fun f => f.code == id.toNat)

/-- Read a field area (R178 step 1, R195): an id that is not a field of the request, a wrong length, a value past the
end of the body, and a second occurrence of a field that is not a list are bad. The number bounds the fields read; the
length of the area is enough. -/
def readFields (c : ReqCode) : Nat → List FieldId → List Byte → Parsed
  | _, _, [] => .good []
  | 0, _, id :: _ => .bad id.toNat
  | n + 1, seen, id :: rest =>
    match c.fieldOf id with
    | none => .bad id.toNat
    | some f =>
      match rest with
      | [] => .bad id.toNat
      | len :: body =>
        if len.toNat ≠ f.size ∨ body.length < f.size ∨ (f.isList = false ∧ f ∈ seen) then .bad id.toNat
        else (readFields c n (f :: seen) (body.drop f.size)).cons (f, f.decode (body.take f.size))

/-- The field area of a request of a kind. -/
def ReqCode.read (c : ReqCode) (area : List Byte) : Parsed := readFields c area.length [] area

/-! ### Fields of a request -/

/-- The value of a field, if the request carries it. -/
def fieldValue (fs : List Field) (f : FieldId) : Option Int := (fs.find? (fun e => e.1 == f)).map (·.2)

/-- Whether the request carries a field. -/
def carries (fs : List Field) (f : FieldId) : Bool := fs.any (fun e => e.1 == f)

/-- The value of a field that the checks have found present. -/
def fieldInt (fs : List Field) (f : FieldId) : Int := (fieldValue fs f).getD 0

/-- The same value where it is not negative. -/
def fieldNat (fs : List Field) (f : FieldId) : Nat := (fieldInt fs f).toNat

/-- The axis a request names. -/
def fieldAxis (fs : List Field) : AxisId := AxisId.ofNum (fieldInt fs .axis)

/-- The occurrences of a list field, in the order of the body (R196). -/
def fieldList (fs : List Field) (f : FieldId) : List Int := (fs.filter (fun e => e.1 == f)).map (·.2)

/-! ### Answers -/

/-- An answer with nothing but its result. -/
def Answer.bare (r : Result) : Answer := ⟨r, [], [], []⟩

/-- A refusal that names a field in DETAIL. -/
def Answer.detail (r : Result) (id : Nat) : Answer := ⟨r, [(.detail, (id : Int))], [], []⟩

/-- An acceptance with fields that stand alone. -/
def Answer.ok (fs : List Field) : Answer := ⟨.ok, fs, [], []⟩

/-! ### The general checks (R178) -/

/-- The fields required of a request, SEEK-DIR of a HOME with a switch method among them (R21, R178). -/
def ReqCode.requiredNow (c : ReqCode) (fs : List Field) : List FieldId :=
  if c = .home ∧ (fieldValue fs .method = some 0 ∨ fieldValue fs .method = some 1) then
    [.axis, .method, .seekDir, .qualifyDir, .datum, .timeLimit]
  else c.required

/-- The presence rules of ENQUEUE (R59) and CANCEL (R72), with the DETAIL each gives. -/
def ReqCode.presence (c : ReqCode) (fs : List Field) : Option FieldId :=
  match c with
  | .enqueue =>
    if carries fs .station && carries fs .target then some .target
    else if !carries fs .station && !carries fs .target then some .station
    else if carries fs .target && !carries fs .profile then some .profile
    else none
  | .cancel =>
    if carries fs .orderTag && carries fs .all then some .all
    else if !carries fs .orderTag && !carries fs .all then some .orderTag
    else none
  | _ => none

/-- Whether a request passes the session check in a CLOSED session (R178 step 2). -/
def ReqCode.anySession : ReqCode → Bool
  | .openSession | .identify | .ping => true
  | _ => false

/-- What the general checks give: a refusal, or the fields of the request. -/
inductive Checked where
  | refused (a : Answer)
  | passed (fields : List Field)
  deriving DecidableEq, Repr

/-- Steps 1 to 3 of R178. The required fields are listed in increasing id, so the first missing one has the lowest. -/
def ReqCode.check (c : ReqCode) (session : Session) (area : List Byte) : Checked :=
  match c.read area with
  | .bad id => .refused (.detail .badFormat id)
  | .good fs =>
    match (c.requiredNow fs).find? (fun f => !carries fs f) with
    | some f => .refused (.detail .badFormat f.code)
    | none =>
      match c.presence fs with
      | some f => .refused (.detail .badFormat f.code)
      | none =>
        if session = .closed ∧ c.anySession = false then .refused (.bare .notOpen)
        else
          match fs.find? (fun e => !e.1.inRange c e.2) with
          | some e => .refused (.detail .badValue e.1.code)
          | none => .passed fs

/-! ### Execution -/

/-- The cached reply with a TAG (R183). -/
def LinkPort.cached (l : LinkPort) (tag : Byte) : Option Reply := l.cache.find? (fun r => r.tag == tag)

/-- Whether the Link Port executes now: the reply queue has room, and no RESTART is pending (R177, R191). -/
def LinkPort.executes (l : LinkPort) : Bool := decide (l.replies.length < Config.replies) && decide (l.restart = .none)

/-- Whether a request of the intake is answered from the cache (R183). -/
def LinkPort.fromCache (l : LinkPort) (r : Request) : Bool := r.retry && (l.cached r.tag).isSome

/-- The request that an execution of a kind takes: the oldest of the intake, when it is of that kind (none: its CODE is
no request code) and is to be executed (R177, R183; notes/assumptions/1.md). -/
def State.dueRequest (s : State) (c : Option ReqCode) : Option Request :=
  match s.link.intake with
  | [] => none
  | r :: _ => if s.link.executes && !s.link.fromCache r && decide (ReqCode.ofByte r.code = c) then some r else none

/-- The oldest request leaves the intake (R176). -/
def LinkPort.popIntake (l : LinkPort) : LinkPort := { l with intake := l.intake.tail }

/-- Write a reply to the cache (R182): the entry with its TAG goes, then the oldest when 8 are held, and the new one
joins. -/
def cacheWrite (cache : List Reply) (r : Reply) : List Reply :=
  let rest := cache.filter (fun e => e.tag != r.tag)
  (if rest.length < Config.cache then rest else rest.tail) ++ [r]

/-- A reply joins the reply queue and is written to the cache (R177, R182). -/
def LinkPort.answer (r : Reply) (l : LinkPort) : LinkPort :=
  { l with replies := l.replies ++ [r], cache := cacheWrite l.cache r }

/-- Answer a request (R177). -/
def State.reply (tag : Byte) (r : Answer × State) : State := r.2.setLink (r.2.link.answer ⟨tag, r.1⟩)

/-- The general checks, and behind them the request's own rule. -/
def State.serve (s : State) (c : ReqCode) (area : List Byte) (own : List Field → State → Answer × State) :
    Answer × State :=
  match c.check s.link.session area with
  | .refused a => (a, s)
  | .passed fs => own fs s

/-- Execute the oldest request of the intake when it is of a kind (R177): it leaves the intake, is checked, acts by its
own rule, and its reply is queued and cached. -/
def State.execute (s : State) (c : ReqCode) (own : List Field → State → Answer × State) : State :=
  match s.dueRequest (some c) with
  | none => s
  | some r => State.reply r.tag ((s.setLink s.link.popIntake).serve c r.area own)

end Sys2Proof.Machine
end

