-- ==== Sys2Proof/Machine/Encoding.lean ====
section
/-! DEFINITION. What the SA-410 puts on the line (C11): the CRC (R173), fields, the bodies of replies and notices in the
order of R196, frames, and the page limits of list replies (R197). -/

namespace Sys2Proof.Machine

/-! ### CRC (R173) -/

/-- The generator polynomial below x^16: x^12 + x^5 + 1. -/
def crcPoly : BitVec 16 := 0x1021

/-- One bit through the CRC register. -/
def crcBit (r : BitVec 16) : BitVec 16 := if r.msb then (r <<< 1) ^^^ crcPoly else r <<< 1

/-- One byte through the CRC register, most significant bit first. -/
def crcByte (r : BitVec 16) (b : Byte) : BitVec 16 :=
  crcBit (crcBit (crcBit (crcBit (crcBit (crcBit (crcBit (crcBit (r ^^^ (b.setWidth 16 <<< 8)))))))))

/-- The CRC of a run of bytes, from 0xFFFF, with no inversion. -/
def crc16 (bytes : List Byte) : BitVec 16 := bytes.foldl crcByte 0xFFFF

/-- The high byte of a CRC. -/
def crcHigh (r : BitVec 16) : Byte := r.extractLsb' 8 8

/-- The low byte of a CRC. -/
def crcLow (r : BitVec 16) : Byte := r.extractLsb' 0 8

/-! ### Fields -/

/-- The lowest n bytes of a number, low byte first (table 11-4). -/
def bytesOf : Nat → Nat → List Byte
  | 0, _ => []
  | n + 1, v => BitVec.ofNat 8 v :: bytesOf n (v / 256)

/-- A field on the line: id, length, value, a negative value in two's complement (R195). -/
def encodeField (e : Field) : List Byte :=
  BitVec.ofNat 8 e.1.code :: BitVec.ofNat 8 e.1.size :: bytesOf e.1.size (BitVec.ofInt (8 * e.1.size) e.2).toNat

/-- The bytes a field takes in a body. -/
def fieldSize (e : Field) : Nat := 2 + e.1.size

/-- The bytes a group takes in a body. -/
def groupSize (g : List Field) : Nat := (g.map fieldSize).sum

/-- Fields in increasing id; occurrences of one field keep their order (R196). -/
def inIdOrder (fs : List Field) : List Field := fs.insertionSort (fun a b => a.1.code ≤ b.1.code)

/-- A group: its leading field, then the others in increasing id (R196). -/
def groupOrder : List Field → List Field
  | [] => []
  | lead :: rest => lead :: inIdOrder rest

/-- The fields of a reply in their order on the line (R196). -/
def Answer.fields (a : Answer) : List Field := inIdOrder a.alone ++ a.groups.flatMap groupOrder ++ a.trailing

/-! ### Bodies and frames -/

/-- The body of a reply: KIND REPLY, TAG, result, fields (table 11-3). -/
def Reply.frameBody (r : Reply) : List Byte :=
  3 :: r.tag :: BitVec.ofNat 8 r.answer.result.code :: r.answer.fields.flatMap encodeField

/-- The notice kind code (table 11-10). -/
def NoticeBody.code : NoticeBody → Nat
  | .startup _ => 1
  | .orderStarted .. => 2
  | .orderDone .. => 3
  | .zone .. => 4
  | .homed .. => 5
  | .homeFailed .. => 6
  | .jogEnded .. => 7
  | .fault .. => 8
  | .window .. => 9
  | .guard .. => 10
  | .captureWaiting _ => 11
  | .linkLost .. => 12
  | .discarded _ => 13

/-- A flag as the value of a field. -/
def flagValue (b : Bool) : Int := if b then 1 else 0

/-- A field that may be absent. -/
def optionalField (f : FieldId) : Option Int → List Field
  | none => []
  | some v => [(f, v)]

/-- The OUTCOME code: 0 ARRIVED for reason NONE, 1 FAILED for every other (tables 4-4, 11-6). -/
def Reason.outcome (r : Reason) : Nat := if r = .none then 0 else 1

/-- The fields of a notice (table 9-2). -/
def NoticeBody.fields : NoticeBody → List Field
  | .startup c => [(.cause, c.code)]
  | .orderStarted a tag target dir takeup =>
    [(.axis, a.num), (.orderTag, tag), (.resolvedTarget, target), (.direction, dirCode dir), (.takeup, flagValue takeup)]
  | .orderDone a tag why position corrections =>
    [(.axis, (a.num : Int)), (.orderTag, tag), (.outcome, why.outcome), (.reason, why.code),
      (.correctionsUsed, corrections)] ++ optionalField .position position
  | .zone a tag z => [(.axis, a.num), (.orderTag, tag), (.zone, z.code)]
  | .homed a p => [(.axis, a.num), (.position, p)]
  | .homeFailed a why => [(.axis, a.num), (.reason, why.code)]
  | .jogEnded a why => [(.axis, a.num), (.reason, why.code)]
  | .fault a k raw => [(.axis, a.num), (.faultKind, k.code), (.rawCount, raw.toInt)]
  | .window n c p => [(.window, n), (.crossing, c.code), (.position, p)]
  | .guard n st => [(.guard, n), (.guardState, st.code)]
  | .captureWaiting a => [(.axis, a.num)]
  | .linkLost stopped t => stopped.map (fun a => (.stoppedAxis, (a.num : Int))) ++ [(.lossTime, (t.toNat : Int))]
  | .discarded n => [(.count, n)]

/-- The body of a notice: KIND NOTICE, SEQ, TIME, kind, fields in increasing id (tables 11-3, 11-10, R196). -/
def Notice.frameBody (n : Notice) : List Byte :=
  4 :: bytesOf 2 n.seq ++ bytesOf 4 n.time.toNat ++ BitVec.ofNat 8 n.body.code ::
    (inIdOrder n.body.fields).flatMap encodeField

/-- A frame: SYNC, LEN, body, CRC high byte first (table 11-1, R173). -/
def frameOf (body : List Byte) : List Byte :=
  let len : Byte := BitVec.ofNat 8 body.length
  let crc := crc16 (len :: body)
  Config.sync :: len :: body ++ [crcHigh crc, crcLow crc]

/-- The frame of a body as the transmitter takes it, with the time of its bytes at 10 bit times each (R181;
notes/assumptions/22.md). -/
def TxFrame.of (rate : Nat) (body : List Byte) : TxFrame where
  bytes := frameOf body
  timer := Timer.start (10 * (body.length + 4) * 1000 / rate)

/-! ### Pages of list replies (R197) -/

/-- How many of some groups are placed: in order, while the body with the next group, and with room for the trailing
field while groups remain behind it, stays within 200 bytes (notes/assumptions/16.md). -/
def placed (room : Nat) : Nat → List (List Field) → Nat
  | _, [] => 0
  | used, g :: rest =>
    if used + groupSize g + (if rest.isEmpty then 0 else room) ≤ Config.maxBody then
      placed room (used + groupSize g) rest + 1
    else 0

end Sys2Proof.Machine
end

