-- ==== Sys2Proof/Machine/Monitor.lean ====
section
/-! DEFINITION. The Window Monitor takes an event (C07): occupancy, WINDOW and GUARD notices, guard states, and the
claims it sends, in the order of R127, R130, R133 and R134. -/

namespace Sys2Proof.Machine

/-! ### Occupancy (R125 to R127) -/

/-- Whether a window contains a position on an axis of a kind (R125). -/
def Window.contains (kind : AxisKind) (v : Window) (p : Int) : Bool :=
  if kind = .rotary ∧ v.upper < v.lower then decide (v.lower ≤ p) || decide (p ≤ v.upper) else within v.lower v.upper p

/-- The occupancy of a window of an axis (R126). -/
def Window.test (x : Axis) (v : Window) : Occupancy :=
  match x.position with
  | none => .unknown
  | some p => if v.contains x.config.kind p then .occupied else .vacant

/-- Whether a change of occupancy is an entry, a leave or neither (R127). -/
def crossingOf : Occupancy → Occupancy → Option Crossing
  | .unknown, .occupied => some .enter
  | .vacant, .occupied => some .enter
  | .occupied, .vacant => some .leave
  | _, _ => none

/-- The occupancy a slot holds; UNKNOWN where it is UNDEFINED (R124). -/
def occupancyAt (ws : Table Window) (n : Nat) : Occupancy :=
  match Table.find n ws with
  | none => .unknown
  | some v => v.occupancy

/-- What happened to a window between two states of the slots (R127). -/
def crossedAt (old new : Table Window) (n : Nat) : Option Crossing := crossingOf (occupancyAt old n) (occupancyAt new n)

/-- Every window of an axis tested again (R126). -/
def retest (a : AxisId) (x : Axis) (ws : Table Window) : Table Window :=
  ws.map (fun e => if e.2.axis = a then (e.1, { e.2 with occupancy := e.2.test x }) else e)

/-- The WINDOW notices of an event at a position, in increasing window number (R127). -/
def windowNotices (position : Option Int) (old new : Table Window) : List NoticeBody :=
  new.flatMap (fun e =>
    match crossedAt old new e.1, position with
    | some c, some p => if e.2.report.asks c then [.window e.1 c p] else []
    | _, _ => [])

/-! ### Guards (R132 to R134) -/

/-- The state of a guard after an evaluation (R132). -/
def Guard.next (ws : Table Window) (g : Guard) : GuardState :=
  match g.state with
  | .clear => if g.members.all (fun n => decide (occupancyAt ws n = .occupied)) then .tripped else .clear
  | .tripped => if g.members.any (fun n => decide (occupancyAt ws n = .vacant)) then .clear else .tripped

/-- The guards of a selection evaluated (R132). -/
def evaluate (ws : Table Window) (pick : Guard → Bool) (gs : Table Guard) : Table Guard :=
  gs.map (fun e => if pick e.2 then (e.1, { e.2 with state := e.2.next ws }) else e)

/-- The state a slot held; a new guard begins CLEAR (R141). -/
def guardStateAt (gs : Table Guard) (n : Nat) : GuardState :=
  match Table.find n gs with
  | none => .clear
  | some g => g.state

/-- The GUARD notices of an event, in increasing guard number (R132). -/
def guardNotices (old new : Table Guard) : List NoticeBody :=
  new.flatMap (fun e => if e.2.state = guardStateAt old e.1 then [] else [.guard e.1 e.2.state])

/-- The stop claims of an event: for each guard that has tripped, one to each of its stop axes (R133). -/
def stopClaims (old new : Table Guard) : List (AxisId × Claim) :=
  new.flatMap (fun e =>
    if e.2.state = .tripped ∧ guardStateAt old e.1 = .clear then e.2.stopAxes.map (fun a => (a, .stop)) else [])

/-- The guard releases of an event: to each axis that has ceased to be named by a TRIPPED guard (R134). -/
def releases (old new : WindowMonitor) : List (AxisId × Claim) :=
  (AxisId.all.filter (fun a => old.guarded a && !new.guarded a)).map (fun a => (a, .release))

/-- The limit claims for the windows of a selection, in increasing window number (R130). -/
def limitClaims (pick : Nat → Window → Bool) (ws : Table Window) : List (AxisId × Claim) :=
  ws.flatMap (fun e =>
    match e.2.limitRole.forbids with
    | none => []
    | some d => if pick e.1 e.2 then [(e.2.axis, .limit d)] else [])

/-! ### One event -/

/-- The Window Monitor takes an event at a position that leaves new window slots: the picked guards are evaluated, then
WINDOW notices, GUARD notices, stop claims, guard releases and limit claims go out (R127, R130, R132 to R134). -/
def State.monitorTakes (s : State) (position : Option Int) (ws : Table Window) (pick : Guard → Bool)
    (limits : Nat → Window → Bool) : State :=
  let old := s.monitor
  let new := { old with windows := ws, guards := evaluate ws pick old.guards }
  ((s.setMonitor new).offers (windowNotices position old.windows ws ++ guardNotices old.guards new.guards)).sends
    (stopClaims old.guards new.guards ++ releases old new ++ limitClaims limits ws)

/-- The Window Monitor takes a position change or a reference change of an axis (R126): its windows are tested, and the
guards with a member whose occupancy changed are evaluated. -/
def State.windowsOf (s : State) (a : AxisId) : State :=
  let old := s.monitor.windows
  let ws := retest a (s.axis a) old
  s.monitorTakes (s.axis a).position ws
    (fun g => g.members.any (fun n => decide (occupancyAt old n ≠ occupancyAt ws n)))
    (fun n _ => decide (crossedAt old ws n = some .enter))

/-- The host values after the windows have changed (R146): an output that was or is window-owned has host value off. -/
def WindowMonitor.hostAfter (old : WindowMonitor) (ws : Table Window) : BitVec 8 :=
  old.hostValues &&& ~~~(old.owned ||| { old with windows := ws }.owned)

end Sys2Proof.Machine
end

