-- ==== Sys2Proof/Machine/Counting.lean ====
section
/-! DEFINITION. The Counting Unit at work (C01): the direction of an edge, the gain and the loss of reference, the raising
of a fault, the index check, and a counted edge. -/

namespace Sys2Proof.Machine

/-- Whether an edge is one of those in which A leads B; none when not exactly one of A and B changed (R6). -/
def leadsOf (old new : EncoderLevels) : Option Bool :=
  if old.a ≠ new.a ∧ old.b = new.b then some (new.a != new.b)
  else if old.a = new.a ∧ old.b ≠ new.b then some (new.a == new.b)
  else none

/-- The direction of an edge under COUNT-SENSE (R6). -/
def CountSense.direction (c : CountSense) (leads : Bool) : Dir :=
  if leads = decide (c = .normal) then .positive else .negative

/-- The Axis Controller of an axis takes a position change by one count (R80). -/
def State.controllerMoves (s : State) (a : AxisId) (d : Dir) : State :=
  s.take a (fun x => x.positionMoved a s.timebase (s.monitor.limitAgainst a) d)

/-- A loss of reference (R10): from REFERENCED the axis becomes UNREFERENCED, the baseline is cleared, and the Window
Monitor makes its windows UNKNOWN. -/
def State.loseReference (s : State) (a : AxisId) : State :=
  match (s.axis a).counting.reference with
  | .unreferenced => s
  | .referenced =>
    (s.modifyAxis a (fun x =>
      { x with counting := { x.counting with reference := .unreferenced, baseline := none } })).windowsOf a

/-- The Counting Unit's part of a gain of reference at a raw count (R9, R31): the base is set so that the position there
is the datum plus the shift; a mark of the gain is the baseline when the index check is on. -/
def Axis.gain (datum : Int) (raw : Count) (mark : Bool) (x : Axis) : Axis :=
  { x with
    counting :=
      { x.counting with
        base := BitVec.ofInt 32 datum - raw
        reference := .referenced
        baseline := if mark && x.config.indexSpacing != 0 then some raw else none } }

/-- A counting fault is raised (R12 to R14, R16, R17): recorded with its FAULT notice, the reference lost, and the claim
sent to the Axis Controller. -/
def State.raise (s : State) (a : AxisId) (k : FaultKind) : State :=
  ((s.take a (Axis.recordFault a s.timebase k)).loseReference a).modifyAxis a
    (fun x => { x with faultClaims := x.faultClaims ++ [k] })

/-- LINE is raised, and the present line-fault condition has raised it (R12). -/
def State.raiseLine (s : State) (a : AxisId) : State :=
  (s.modifyAxis a (fun x => { x with counting := { x.counting with lineRaised := true } })).raise a .line

/-- Whether a difference of raw counts passes the index check (R13). -/
def AxisConfig.passesIndex (c : AxisConfig) (d : Int) : Bool :=
  let n : Int := c.indexSpacing
  let tol : Int := c.indexTol
  within (-tol) tol (d - n) || within (-tol) tol (d + n) || within (-tol) tol d

/-- The index check takes a mark (R13). -/
def State.indexCheck (s : State) (a : AxisId) : State :=
  let x := s.axis a
  if x.config.indexSpacing = 0 ∨ x.counting.reference = .unreferenced then s
  else
    match x.counting.baseline with
    | none => s.setAxis a { x with counting := { x.counting with baseline := some x.counting.raw } }
    | some b =>
      if x.config.passesIndex (x.counting.raw - b).toInt then
        s.setAxis a { x with counting := { x.counting with baseline := some x.counting.raw } }
      else s.raise a .slip

/-- The raw count, the last count direction and the pin levels after a counted edge (R6). -/
def Axis.count (levels : EncoderLevels) (d : Dir) (x : Axis) : Axis :=
  { x with
    pins := { x.pins with encoder := levels }
    counting := { x.counting with raw := x.counting.raw + BitVec.ofInt 32 d.sign, lastDir := some d } }

/-- The levels of A and B change (R6, R8, R14). An edge is counted and its count event taken. On a REFERENCED axis it is
then OVERRANGE, or a position change that the Axis Controller and the Window Monitor take in the order given. -/
def State.countEdge (s : State) (a : AxisId) (levels : EncoderLevels) (order : List Block) : State :=
  let x := s.axis a
  match leadsOf x.pins.encoder levels with
  | none => s.setAxis a { x with pins := { x.pins with encoder := levels } }
  | some leads =>
    let d := x.config.countSense.direction leads
    let y := x.count levels d
    let t := s.setAxis a y.countEvent
    match y.counting.reference with
    | .unreferenced => t
    | .referenced =>
      if y.config.kind = .linear ∧ inPositionRange y.formed = false then t.raise a .overrange
      else if Block.before (.axisController a) .windowMonitor order then (t.controllerMoves a d).windowsOf a
      else (t.windowsOf a).controllerMoves a d

end Sys2Proof.Machine
end

