-- ==== Sys2Proof/Machine/OrderStart.lean ====
section
/-! DEFINITION. The start of the head order (C04 section 4.3): resolution (R53), the seven checks (R63, R65, R66), the
active order (R67) and the failed start (R68). -/

namespace Sys2Proof.Machine

/-- What the Table Store resolves for an order (R53, R54). -/
structure Resolved where
  target : Int
  profileNo : Nat
  snapshot : Profile
  settle : Nat
  deriving DecidableEq, Repr

/-- The target, the number of the profile to be used and the settle override of the station, if the place of an order
exists (R53). -/
def TableStore.place (t : TableStore) (a : AxisId) : Destination → Option (Int × Nat × Option Nat)
  | .target p n => some (p, n, none)
  | .station n own =>
    match Table.find (stationKey a n) t.stations with
    | none => none
    | some st => some (st.position, own.getD st.profile, st.settle)

/-- The settle time: of the order, else of the station, else of the profile (R53). -/
def settleOf (own station : Option Nat) (profile : Nat) : Nat := (own.or station).getD profile

/-- What a start finds (R63). -/
inductive Start where
  | waits
  | fails (why : Reason)
  | nothing
  | runs (r : Resolved)
  deriving DecidableEq, Repr

/-- The take-up point of a one-sided approach on a LINEAR axis (R65). -/
def takeupPoint (pr : Profile) (t : Int) : Int :=
  match pr.approach with
  | .either => t
  | .fromBelow => t - pr.takeup
  | .fromAbove => t + pr.takeup

/-- Check 5: the target and the take-up point are in range (R65). -/
def AxisConfig.reaches (c : AxisConfig) (r : Resolved) : Bool :=
  match c.kind with
  | .linear => inPositionRange r.target && inPositionRange (takeupPoint r.snapshot r.target)
  | .rotary => within 0 (c.modulus - 1) r.target

/-- The leg that an order makes first from a position (R66, R83). -/
def AxisConfig.firstLeg (c : AxisConfig) (r : Resolved) (p : Int) : Leg :=
  planLeg c.kind r.snapshot 0 (c.aim r.snapshot p r.target)

/-- Check 7: a ROT-POLICY that conflicts with a one-sided approach on a ROTARY axis (R66). -/
def AxisConfig.conflicts (c : AxisConfig) (pr : Profile) : Bool :=
  decide (c.kind = .rotary) &&
    (decide (pr.approach = .fromBelow ∧ c.rotPolicy = .reverse) ||
      decide (pr.approach = .fromAbove ∧ c.rotPolicy = .forward))

/-- Whether the first leg is forbidden by a limit window; a start inside the window has no first leg (R66). -/
def Leg.limited (limited : Dir → Bool) : Leg → Bool
  | .settle => false
  | .run d _ _ => limited d

/-- Checks 5 to 7 on what was resolved (R63). -/
def Axis.checkResolved (limited : Dir → Bool) (p : Int) (r : Resolved) (x : Axis) : Start :=
  if x.config.reaches r = false then .fails .outOfRange
  else if (x.config.firstLeg r p).limited limited then .fails .limited
  else if x.config.conflicts r.snapshot then .fails .conflict
  else .runs r

/-- The seven checks (R63). A profile entry that is UNDEFINED at the start, which R50 and R53 rule out, lets the start do
nothing (notes/assumptions/17.md). -/
def Axis.checkStart (a : AxisId) (t : TableStore) (guarded : Bool) (limited : Dir → Bool) (o : Order) (x : Axis) :
    Start :=
  if guarded then .waits
  else
    match x.position with
    | none => .fails .unreferenced
    | some p =>
      match t.place a o.destination with
      | none => .fails .stationGone
      | some (target, n, settle) =>
        match Table.find n t.profiles with
        | none => .nothing
        | some pr => x.checkResolved limited p ⟨target, n, pr, settleOf o.settle settle pr.settle⟩

/-- Whether a leg is a take-up. -/
def Leg.isTakeup : Leg → Bool
  | .run _ _ .takeup => true
  | _ => false

/-- The direction ORDER-STARTED reports: of the final approach, NONE when the order settles at once (R67). -/
def Leg.reported (dir : Dir) : Leg → Option Dir
  | .settle => none
  | .run .. => some dir

/-- The active order record at a successful start, before its leg start (R67, R79). -/
def Resolved.activate (r : Resolved) (o : Order) (aim : Aim) (leg : Leg) : ActiveOrder where
  order := o
  target := r.target
  profileNo := r.profileNo
  snapshot := r.snapshot
  settle := r.settle
  takeup := leg.isTakeup
  corrections := 0
  zones := []
  moveLimit := if r.snapshot.timeLimit = 0 then none else some (Timer.start (r.snapshot.timeLimit * 1000))
  substate := .settle (Timer.start r.settle)
  dir := aim.dir
  dist := aim.dist
  leg := none

/-- A successful start (R67): the order is active, ORDER-STARTED is offered with NOTIFY 1, and the leg start follows; its
limit question was check 6. -/
def Axis.startOrder (a : AxisId) (now : Time) (p : Int) (o : Order) (rest : List Order) (r : Resolved) (x : Axis) :
    Taken :=
  let aim := x.config.aim r.snapshot p r.target
  let leg := x.config.firstLeg r p
  let active := r.activate o aim leg
  let e := { x with queue := rest, motion := .moving active }.legStart a now (fun _ => false) p active
  (e.1, (if o.notify then [.orderStarted a o.tag r.target (leg.reported aim.dir) active.takeup] else []) ++ e.2)

/-- A failed start (R68): the head order ends with its ORDER-DONE notice, and the axis is HELD. -/
def Axis.failStart (a : AxisId) (why : Reason) (o : Order) (rest : List Order) (x : Axis) : Taken :=
  ({ x with queue := rest, motion := .held, holdPending := false }, [x.unstartedDone a why o])

/-- The Axis Controller takes a start (R62, R63): it does something on an IDLE axis with a non-empty queue. -/
def Axis.takeStart (a : AxisId) (now : Time) (t : TableStore) (guarded : Bool) (limited : Dir → Bool) (x : Axis) :
    Taken :=
  match x.motion, x.queue with
  | .idle, o :: rest =>
    match x.checkStart a t guarded limited o with
    | .waits => ({ x with motion := .waiting }, [])
    | .fails why => x.failStart a why o rest
    | .nothing => (x, [])
    | .runs r => x.startOrder a now x.formed o rest r
  | _, _ => (x, [])

/-- The Axis Controller of an axis takes a start, with what the Table Store and the Window Monitor answer now (R62). -/
def State.startHead (s : State) (a : AxisId) : State :=
  s.take a (Axis.takeStart a s.timebase s.tables (s.monitor.guarded a) (s.monitor.limitAgainst a))

/-- An order gone from a queue by CANCEL or a flush: its ORDER-DONE (R72, R73, R76). -/
def Axis.cancelled (a : AxisId) (os : List Order) (x : Axis) : List NoticeBody :=
  os.map (x.unstartedDone a .cancelled)

end Sys2Proof.Machine
end

