-- ==== Sys2Proof/Machine/HomingRuns.lean ====
section
/-! DEFINITION. Homing runs (C02): the wanted pattern, what SENSE edges and index marks do in each substate, and the
reference event. -/

namespace Sys2Proof.Machine

/-- The wanted pattern of a homing run on a DRIVEN axis: the RUN line and HIGH (R24). SEEK runs in SEEK-DIR, which an
INDEX-ONLY run has not and does not use. -/
def Homing.wanted (h : Homing) : Dir × Bool :=
  match h.substate with
  | .seek => (h.seekDir.getD h.qualify, h.fast)
  | .onSwitch => (h.qualify, false)
  | .awaitIndex => (h.qualify, false)

/-- Ask for a RUN line: it turns on when both lines are off and the lockout permits it; otherwise the lines stay as they
are (R24, R111, R115). -/
def Axis.askFor (d : Dir) (high : Bool) (x : Axis) : Axis :=
  match x.lines with
  | .off => if x.permits d then x.turnOn d high else x
  | .run _ _ => x

/-- Bring the lines of a DRIVEN axis to the wanted pattern of a homing run (R24). A WATCHED axis has none (R30). -/
def Axis.bringLines (now : Time) (h : Homing) (x : Axis) : Axis :=
  if x.driven then
    if x.lines.dir = some h.wanted.1 then x.setHigh h.wanted.2
    else (x.turnOff now).askFor h.wanted.1 h.wanted.2
  else x

/-- A homing run goes on with a changed record (R24). -/
def Axis.homingGoes (now : Time) (h : Homing) (x : Axis) : Taken :=
  ({ x with motion := .homing h }.bringLines now h, [])

/-- Whether the axis moves in the qualify direction (R25). -/
def Homing.qualified (h : Homing) (dir : Option Dir) : Bool := decide (dir = some h.qualify)

/-- The position at a reference event or a TEACH: the datum plus the shift, reduced on a ROTARY axis (R9). -/
def Axis.datumPosition (datum : Int) (x : Axis) : Int := x.reduce (datum + x.counting.shift)

/-- The Axis Controller ends a run at its reference event: lines off, HOMED, record discarded, IDLE or, with the
hold-pending flag 1, HELD (R31). -/
def Axis.endHoming (a : AxisId) (now : Time) (datum : Int) (x : Axis) : Taken :=
  ({ x.turnOff now with
      stall := none
      motion := if x.holdPending then .held else .idle
      holdPending := false },
    [.homed a (x.datumPosition datum)])

/-- What one party does at a reference event of an axis: the Axis Controller ends the run, the Window Monitor takes the
gain, the Capture Log takes the SENSE edge that is the event of a SWITCH-EDGE run, and the head order starts (R31,
R151). -/
def State.referenceAct (a : AxisId) (datum : Int) (s : State) : Block → State
  | .axisController _ => s.take a (Axis.endHoming a s.timebase datum)
  | .windowMonitor => s.windowsOf a
  | .captureLog => s.logSense a false
  | .orderStart _ => s.startHead a
  | .linkPort => s

/-- The parties to a reference event. The start that the end of the run makes due is one of them only where the order of
the command names it: then it meets the gain (R31, R135); otherwise ORDER_START takes it. -/
def referenceBlocks (a : AxisId) (sense : Bool) (order : List Block) : List Block :=
  [.axisController a, .windowMonitor] ++ (if sense then [.captureLog] else []) ++
    (if order.contains (.orderStart a) then [.orderStart a] else [])

/-- The reference event of a homing run at the present raw count: an index mark, or a SENSE edge (R31). The Counting Unit
gains reference, and the parties take the event in the order given. -/
def State.referenceEvent (s : State) (a : AxisId) (datum : Int) (sense : Bool) (order : List Block) : State :=
  (Block.arrange order (referenceBlocks a sense order)).foldl (State.referenceAct a datum)
    (s.modifyAxis a (fun x => x.gain datum x.counting.raw (!sense)))

/-- An index mark reaches homing with the direction of the axis (R26 to R29). -/
def State.homingMark (s : State) (a : AxisId) (dir : Option Dir) (order : List Block) : State :=
  match (s.axis a).motion with
  | .homing h =>
    match h.substate with
    | .awaitIndex => if h.qualified dir then s.referenceEvent a h.datum false order else s
    | .seek | .onSwitch => s
  | .idle | .held | .waiting | .moving _ | .jogging _ | .faulted => s

/-- The record of a homing run after a SENSE edge that is no reference event (R26 to R29). -/
def Homing.sensed (h : Homing) (active : Bool) (dir : Option Dir) : Homing :=
  match h.substate, active with
  | .seek, true => { h with substate := .onSwitch }
  | .onSwitch, false =>
    if h.qualified dir then { h with substate := .awaitIndex } else { h with substate := .seek, seekDir := some h.qualify }
  | .awaitIndex, true => if h.method = .switchIndex then { h with substate := .onSwitch } else h
  | _, _ => h

/-- Whether a SENSE edge is the reference event of a run (R27). -/
def Homing.endsAt (h : Homing) (active : Bool) (dir : Option Dir) : Bool :=
  decide (h.substate = .onSwitch) && !active && decide (h.method = .switchEdge) && h.qualified dir

/-- A SENSE edge reaches a homing run and the Capture Log (R26 to R29, R151). Their order matters only where the edge ends
the run: an edge that does not leaves the axis HOMING. -/
def State.homingSense (s : State) (a : AxisId) (h : Homing) (active : Bool) (order : List Block) : State :=
  let dir := (s.axis a).counting.lastDir
  if h.endsAt active dir then s.referenceEvent a h.datum true order
  else (s.take a (Axis.homingGoes s.timebase (h.sensed active dir))).logSense a active

/-- The substate in which a run starts (R23). -/
def Axis.homingStart (m : Method) (x : Axis) : HomingSubstate :=
  match m with
  | .indexOnly => .awaitIndex
  | .switchIndex => if x.senseActive then .onSwitch else .seek
  | .switchEdge => if x.senseActive then .onSwitch else .seek

end Sys2Proof.Machine
end

