-- ==== Sys2Proof/Machine/JogRuns.lean ====
section
/-! DEFINITION. The running of a jog (C06 section 6.4) and the expiry of the lockout (R112). -/

namespace Sys2Proof.Machine

/-- The jog asks for its RUN line (R115): on at once when the lockout permits it, pending otherwise. -/
def Axis.askJog (j : Jog) (x : Axis) : Axis :=
  if x.permits j.dir then
    { x.turnOn j.dir (decide (j.speed = .high)) with motion := .jogging { j with pending := false } }
  else { x with motion := .jogging { j with pending := true } }

/-- A JOG with a direction starts a jog (R115). -/
def Axis.startJog (d : Dir) (sp : Speed) (deadman : Nat) (x : Axis) : Axis :=
  x.askJog ⟨d, sp, Timer.start deadman, true⟩

/-- A JOG with a direction on a JOGGING axis (R116). -/
def Axis.changeJog (now : Time) (j : Jog) (d : Dir) (sp : Speed) (deadman : Nat) (x : Axis) : Axis :=
  let k : Jog := ⟨d, sp, Timer.start deadman, j.pending⟩
  if d = j.dir then
    if j.pending then { x with motion := .jogging k }
    else { x.setHigh (decide (sp = .high)) with motion := .jogging k }
  else if j.pending then x.askJog k
  else (x.turnOff now).askJog k

/-- An accepted JOG with a direction (R115, R116). -/
def Axis.jog (now : Time) (d : Dir) (sp : Speed) (deadman : Nat) (x : Axis) : Axis :=
  match x.motion with
  | .jogging j => x.changeJog now j d sp deadman
  | .idle | .held | .waiting | .moving _ | .homing _ | .faulted => x.startJog d sp deadman

/-- An accepted JOG with DIRECTION NONE (R115, R116). -/
def Axis.jogNone (a : AxisId) (now : Time) (x : Axis) : Taken :=
  match x.motion with
  | .jogging _ => x.endJog a now .ended
  | .idle | .held | .waiting | .moving _ | .homing _ | .faulted => (x, [])

/-- The lockout timer expires (R112): the lockout ceases to be in force, and the operation that waits for it goes on. -/
def Axis.lockoutExpired (a : AxisId) (now : Time) (limited : Dir → Bool) (x : Axis) : Taken :=
  let y := x.endLockout
  match y.motion with
  | .moving o =>
    match o.substate with
    | .reversing _ => y.legStart a now limited (y.knownPosition o) o
    | .takeup | .fast | .slow _ | .coast _ | .settle _ => (y, [])
  | .homing h => (y.bringLines now h, [])
  | .jogging j => (if j.pending then y.askJog j else y, [])
  | .idle | .held | .waiting | .faulted => (y, [])

end Sys2Proof.Machine
end

