-- ==== Sys2Proof/Machine/LinkRequests.lean ====
section
/-! DEFINITION. The requests the Link Port answers itself (C10): OPEN, CLOSE, PING, IDENTIFY, LINK-STATUS, RESTART; a
request with an unknown CODE (R178) and a RETRY answered from the cache (R183). -/

namespace Sys2Proof.Machine

/-- An accepted OPEN at the Link Port (R185 steps 1 to 3). -/
def LinkPort.opens (keepalive : Nat) (l : LinkPort) : LinkPort :=
  { l with
    session := .opened
    cache := []
    keepalive := if keepalive = 0 then none else some (Timer.start keepalive) }

/-- OPEN (R185). -/
def openRule (fs : List Field) (s : State) : Answer × State :=
  match s.link.session with
  | .opened => (.bare .wrongState, s)
  | .closed =>
    (.ok [(.keepalive, fieldInt fs .keepalive), (.queued, s.notices.entries.length)],
      s.setLink (s.link.opens (fieldNat fs .keepalive)))

/-- An axis that is IDLE or WAITING with a non-empty queue becomes HELD, its flag cleared (R187, R188). -/
def Axis.holdQueue (x : Axis) : Axis :=
  if (x.motion = .idle ∨ x.motion = .waiting) ∧ x.queue ≠ [] then { x with motion := .held, holdPending := false } else x

/-- An accepted CLOSE at the Link Port (R187 steps 1, 4 and 5). -/
def LinkPort.closes (l : LinkPort) : LinkPort :=
  { l with session := .closed, keepalive := none, replies := [], cache := [] }

/-- An accepted CLOSE (R187). -/
def State.close (s : State) : State :=
  { s with axes := s.axes.map Axis.holdQueue, notices := s.notices.unsend, link := s.link.closes }

/-- CLOSE (R187). -/
def closeRule (_fs : List Field) (s : State) : Answer × State :=
  if s.anyInMotion then (.bare .wrongState, s) else (.ok [], s.close)

/-- PING (R190). -/
def pingRule (_fs : List Field) (s : State) : Answer × State := (.ok [(.session, s.link.session.code)], s)

/-- IDENTIFY (R190, table 10-1). -/
def identifyRule (_fs : List Field) (s : State) : Answer × State :=
  (.ok [(.session, s.link.session.code), (.vendorCode, Config.vendorCode), (.partCode, Config.partCode),
    (.revision, Config.revision), (.axes, Config.axes), (.stations, Config.stations), (.profiles, Config.profiles),
    (.windows, Config.windows), (.guards, Config.guards), (.queue, Config.queue), (.notices, Config.notices),
    (.linkRate, s.link.rate)], s)

/-- The reply fields of LINK-STATUS (R175). -/
def LinkCounters.fields (c : LinkCounters) : List Field :=
  [(.crc, c.crc), (.gap, c.gap), (.format, c.format), (.dropped, c.dropped)]

/-- LINK-STATUS (R175). -/
def linkStatusRule (fs : List Field) (s : State) : Answer × State :=
  (.ok s.link.counters.fields,
    if fieldInt fs .clear = 1 then s.setLink { s.link with counters := ⟨0, 0, 0, 0⟩ } else s)

/-- RESTART (R191): the reply OK is formed and nothing further is executed. -/
def restartRule (_fs : List Field) (s : State) : Answer × State :=
  (.ok [], s.setLink { s.link with restart := .replyWaiting })

/-- The answer to a CODE that is no request code (R178, R194). -/
def State.executeUnknown (s : State) : State :=
  match s.dueRequest none with
  | none => s
  | some r => State.reply r.tag (.bare .badFormat, s.setLink s.link.popIntake)

/-- A RETRY whose TAG is cached: a copy of the cached reply joins the reply queue, and the cache stays (R183). -/
def LinkPort.answerRetry (l : LinkPort) : LinkPort :=
  match l.intake with
  | [] => l
  | r :: _ =>
    match l.cached r.tag with
    | none => l
    | some reply =>
      if l.executes && r.retry then { l.popIntake with replies := l.replies ++ [reply] } else l

/-- OPEN. -/
def execOpenSession (s : State) : Host.Outcome State Fault Refusal := .next (s.execute .openSession openRule)

/-- CLOSE. -/
def execCloseSession (s : State) : Host.Outcome State Fault Refusal := .next (s.execute .closeSession closeRule)

/-- PING. -/
def execPing (s : State) : Host.Outcome State Fault Refusal := .next (s.execute .ping pingRule)

/-- IDENTIFY. -/
def execIdentify (s : State) : Host.Outcome State Fault Refusal := .next (s.execute .identify identifyRule)

/-- LINK-STATUS. -/
def execLinkStatus (s : State) : Host.Outcome State Fault Refusal := .next (s.execute .linkStatus linkStatusRule)

/-- RESTART. -/
def execRestart (s : State) : Host.Outcome State Fault Refusal := .next (s.execute .restart restartRule)

/-- A request whose CODE is not in table 11-8. -/
def execUnknownRequestCode (s : State) : Host.Outcome State Fault Refusal := .next s.executeUnknown

/-- A RETRY answered from the cache. -/
def execRetryFromCache (s : State) : Host.Outcome State Fault Refusal := .next (s.setLink s.link.answerRetry)

end Sys2Proof.Machine
end

