-- ==== Sys2Proof/Machine/AxisRequests.lean ====
section
/-! DEFINITION. SET-AXIS, GET-AXIS, AXIS-STATUS and CLEAR-FAULT (C01). -/

namespace Sys2Proof.Machine

/-- The configuration after a SET-AXIS (R2): a field that is absent keeps its value. -/
def AxisConfig.with (fs : List Field) (c : AxisConfig) : AxisConfig where
  role := (fieldValue fs .role).elim c.role Role.ofCode
  kind := (fieldValue fs .kind).elim c.kind AxisKind.ofCode
  modulus := (fieldValue fs .modulus).elim c.modulus Int.toNat
  countSense := (fieldValue fs .countSense).elim c.countSense CountSense.ofCode
  rotPolicy := (fieldValue fs .rotPolicy).elim c.rotPolicy RotPolicy.ofCode
  indexSpacing := (fieldValue fs .indexSpacing).elim c.indexSpacing Int.toNat
  indexTol := (fieldValue fs .indexTol).elim c.indexTol Int.toNat
  lineCheck := (fieldValue fs .lineCheck).elim c.lineCheck (· == 1)
  stallTime := (fieldValue fs .stallTime).elim c.stallTime Int.toNat
  restTime := (fieldValue fs .restTime).elim c.restTime Int.toNat
  reversalGap := (fieldValue fs .reversalGap).elim c.reversalGap Int.toNat
  senseLevel := (fieldValue fs .senseLevel).elim c.senseLevel SenseLevel.ofCode

/-- The stored values, a lockout in force under a changed REVERSAL-GAP (R112), and the baseline under a changed
INDEX-SPACING or INDEX-TOL (R3). -/
def Axis.configure (c : AxisConfig) (x : Axis) : Axis :=
  let y := if c.reversalGap = x.config.reversalGap then x else x.changeGap c.reversalGap
  { y with
    config := c
    counting :=
      { y.counting with
        baseline :=
          if c.indexSpacing = x.config.indexSpacing ∧ c.indexTol = x.config.indexTol then y.counting.baseline
          else none } }

/-- Whether a change of configuration drops the reference (R3). -/
def AxisConfig.dropsReference (old new : AxisConfig) : Bool :=
  decide (old.kind ≠ new.kind) || decide (old.modulus ≠ new.modulus) || decide (old.countSense ≠ new.countSense)

/-- Whether a SET-AXIS raises LINE (R3, R12): LINE-CHECK becomes 1 while the condition is present, and the condition has
not raised LINE before. -/
def Axis.checkRaises (new : AxisConfig) (x : Axis) : Bool :=
  !x.config.lineCheck && new.lineCheck && x.counting.lineFault && !x.counting.lineRaised

/-- An accepted SET-AXIS (R2, R3). -/
def State.configure (s : State) (a : AxisId) (c : AxisConfig) : State :=
  let x := s.axis a
  let t := s.modifyAxis a (Axis.configure c)
  let u := if x.config.dropsReference c then t.loseReference a else t
  if x.checkRaises c then u.raiseLine a else u

/-- Whether SET-AXIS is accepted (R2). -/
def Axis.configurable (x : Axis) : Bool := (decide (x.motion = .idle) || decide (x.motion = .held)) && x.queue.isEmpty

/-- SET-AXIS (R2). -/
def setAxisRule (fs : List Field) (s : State) : Answer × State :=
  let a := fieldAxis fs
  if (s.axis a).configurable then
    let t := s.configure a ((s.axis a).config.with fs)
    (.ok [(.reference, (t.axis a).counting.reference.code)], t)
  else (.bare .wrongState, s)

/-- The reply fields of GET-AXIS (R4). -/
def AxisConfig.fields (a : AxisId) (c : AxisConfig) : List Field :=
  [(.axis, a.num), (.role, c.role.code), (.kind, c.kind.code), (.modulus, c.modulus),
    (.countSense, c.countSense.code), (.rotPolicy, c.rotPolicy.code), (.indexSpacing, c.indexSpacing),
    (.indexTol, c.indexTol), (.lineCheck, flagValue c.lineCheck), (.stallTime, c.stallTime), (.restTime, c.restTime),
    (.reversalGap, c.reversalGap), (.senseLevel, c.senseLevel.code)]

/-- GET-AXIS (R4). -/
def getAxisRule (fs : List Field) (s : State) : Answer × State :=
  let a := fieldAxis fs
  (.ok ((s.axis a).config.fields a), s)

/-- The fault fields of AXIS-STATUS, present while FAULTED (R19; notes/assumptions/13.md). -/
def Axis.faultFields (x : Axis) : List Field :=
  if x.motion.isFaulted then
    match x.counting.fault with
    | none => []
    | some r =>
      [(.firstFault, (r.first.code : Int)), (.faultTime, r.time.toNat), (.faultCount, r.count.toInt)] ++
        r.later.map (fun k => (.laterFault, (k.code : Int)))
  else []

/-- The reply fields of AXIS-STATUS (table 1-2). -/
def Axis.statusFields (a : AxisId) (x : Axis) : List Field :=
  [(.axis, (a.num : Int)), (.reference, x.counting.reference.code), (.rawCount, x.counting.raw.toInt)] ++
    optionalField .position x.position ++
    [(.motion, (x.motion.code : Int)), (.substate, x.motion.substateCode), (.queueLength, x.moveQueue.length),
      (.lines, x.lines.code), (.holdPending, flagValue x.holdPending)] ++
    x.faultFields ++
    [(.captures, (x.log.ring.length : Int)), (.shift, x.counting.shift)] ++
    optionalField .orderTag (x.activeTag.map Int.ofNat)

/-- AXIS-STATUS (R19). -/
def axisStatusRule (fs : List Field) (s : State) : Answer × State :=
  let a := fieldAxis fs
  (.ok ((s.axis a).statusFields a), s)

/-- The axis after an accepted CLEAR-FAULT (R18). -/
def Axis.clearFault (x : Axis) : Axis :=
  { x with counting := { x.counting with fault := none }, motion := .held, holdPending := false }

/-- CLEAR-FAULT (R18). -/
def clearFaultRule (fs : List Field) (s : State) : Answer × State :=
  let a := fieldAxis fs
  let x := s.axis a
  if x.motion.isFaulted = false then (.bare .wrongState, s)
  else if x.counting.lineFault && x.config.lineCheck then (.bare .conflict, s)
  else (.ok [], s.modifyAxis a Axis.clearFault)

/-- SET-AXIS. -/
def execSetAxis (s : State) : Host.Outcome State Fault Refusal := .next (s.execute .setAxis setAxisRule)

/-- GET-AXIS. -/
def execGetAxis (s : State) : Host.Outcome State Fault Refusal := .next (s.execute .getAxis getAxisRule)

/-- AXIS-STATUS. -/
def execAxisStatus (s : State) : Host.Outcome State Fault Refusal := .next (s.execute .axisStatus axisStatusRule)

/-- CLEAR-FAULT. -/
def execClearFault (s : State) : Host.Outcome State Fault Refusal := .next (s.execute .clearFault clearFaultRule)

end Sys2Proof.Machine
end

