-- ==== Sys2Proof/Machine/ReferenceRequests.lean ====
section
/-! DEFINITION. HOME, TEACH and SHIFT (C02). -/

namespace Sys2Proof.Machine

/-- The datum check of HOME and TEACH (R22, R36). -/
def Axis.datumFits (datum : Int) (x : Axis) : Bool :=
  match x.config.kind with
  | .linear => inPositionRange (datum + x.counting.shift)
  | .rotary => within 0 (x.config.modulus - 1) datum

/-- The homing record a HOME makes (R21, R23, table 2-2); INDEX-ONLY stores no SEEK-DIR. -/
def Axis.homingRecord (fs : List Field) (x : Axis) : Homing :=
  let m := Method.ofCode (fieldInt fs .method)
  { method := m
    seekDir := if m = .indexOnly then none else some (Dir.ofCode (fieldInt fs .seekDir))
    qualify := Dir.ofCode (fieldInt fs .qualifyDir)
    datum := fieldInt fs .datum
    fast := fieldInt fs .fast == 1
    substate := x.homingStart m
    limit := Timer.start (fieldNat fs .timeLimit * 1000) }

/-- An accepted HOME (R23): the record, HOMING, the loss of reference and the lines. -/
def State.startHoming (s : State) (a : AxisId) (h : Homing) : State :=
  (s.take a (Axis.homingGoes s.timebase h)).loseReference a

/-- HOME (R21 to R23). -/
def homeRule (fs : List Field) (s : State) : Answer × State :=
  let a := fieldAxis fs
  let x := s.axis a
  if x.datumFits (fieldInt fs .datum) = false then (.detail .badValue FieldId.datum.code, s)
  else if x.motion.isFaulted then (.bare .faulted, s)
  else if x.motion.inMotion then (.bare .wrongState, s)
  else if s.monitor.guarded a then (.bare .guarded, s)
  else
    let h := x.homingRecord fs
    (.ok [(.substate, h.substate.code)], s.startHoming a h)

/-- An accepted TEACH (R36, R37): a gain of reference at the present raw count. -/
def State.teach (s : State) (a : AxisId) (datum : Int) : State :=
  (s.modifyAxis a (fun x => x.gain datum x.counting.raw false)).windowsOf a

/-- TEACH (R36). -/
def teachRule (fs : List Field) (s : State) : Answer × State :=
  let a := fieldAxis fs
  let x := s.axis a
  let datum := fieldInt fs .datum
  if x.datumFits datum = false then (.detail .badValue FieldId.datum.code, s)
  else if x.motion.isFaulted then (.bare .faulted, s)
  else if x.motion.inMotion then (.bare .wrongState, s)
  else (.ok [(.position, x.datumPosition datum)], s.teach a datum)

/-- The new shift of a SHIFT (R38). -/
def Axis.newShift (m : ShiftMode) (v : Int) (x : Axis) : Int :=
  match m with
  | .set => v
  | .add => x.counting.shift + v

/-- Check 2 of SHIFT (R38): on a REFERENCED LINEAR axis the position stays in range. -/
def Axis.shiftFits (v : Int) (x : Axis) : Bool :=
  match x.position, x.config.kind with
  | some p, .linear => inPositionRange (p + (v - x.counting.shift))
  | _, _ => true

/-- An accepted SHIFT (R39): the shift is stored; on a REFERENCED axis a change moves the position in one step. -/
def State.shift (s : State) (a : AxisId) (v : Int) : State :=
  let x := s.axis a
  let t := s.setAxis a { x with counting := { x.counting with shift := v } }
  if x.counting.reference = .referenced ∧ v ≠ x.counting.shift then t.windowsOf a else t

/-- SHIFT (R38, R39). -/
def shiftRule (fs : List Field) (s : State) : Answer × State :=
  let a := fieldAxis fs
  let x := s.axis a
  let v := x.newShift (ShiftMode.ofCode (fieldInt fs .shiftMode)) (fieldInt fs .shift)
  if within (-Config.maxShift) Config.maxShift v = false then (.detail .badValue FieldId.shift.code, s)
  else if x.shiftFits v = false then (.detail .badValue FieldId.shift.code, s)
  else if x.motion.inMotion then (.bare .wrongState, s)
  else
    let t := s.shift a v
    (.ok (optionalField .position (t.axis a).position ++ [(.shift, v)]), t)

/-- HOME. -/
def execHome (s : State) : Host.Outcome State Fault Refusal := .next (s.execute .home homeRule)

/-- TEACH. -/
def execTeach (s : State) : Host.Outcome State Fault Refusal := .next (s.execute .teach teachRule)

/-- SHIFT. -/
def execShift (s : State) : Host.Outcome State Fault Refusal := .next (s.execute .shift shiftRule)

end Sys2Proof.Machine
end

