-- ==== Sys2Proof/Machine/TableRequests.lean ====
section
/-! DEFINITION. The requests of the Station Pool and the Profile Table (C03). -/

namespace Sys2Proof.Machine

/-- Whether an entry of the Profile Table is DEFINED (R48). -/
def TableStore.defined (t : TableStore) (n : Nat) : Bool := (Table.find n t.profiles).isSome

/-- The free count of the Station Pool (R41). -/
def TableStore.free (t : TableStore) : Int := Config.stations - t.stations.length

/-- The station record of a PUT-STATION (R44). -/
def stationOf (fs : List Field) : Station :=
  ⟨fieldInt fs .position, fieldNat fs .profile, (fieldValue fs .settle).map Int.toNat⟩

/-- The key of the station a request names. -/
def stationKeyOf (fs : List Field) : Nat := stationKey (fieldAxis fs) (fieldNat fs .station)

/-- PUT-STATION (R43, R44). -/
def putStationRule (fs : List Field) (s : State) : Answer × State :=
  let t := s.tables
  let k := stationKeyOf fs
  let held := (Table.find k t.stations).isSome
  if t.defined (fieldNat fs .profile) = false then (.detail .noSuch FieldId.profile.code, s)
  else if held = false ∧ Config.stations ≤ t.stations.length then (.bare .full, s)
  else
    let u := { t with stations := Table.put k (stationOf fs) t.stations }
    (.ok [(.created, flagValue !held), (.free, u.free)], s.setTables u)

/-- DROP-STATION (R45). -/
def dropStationRule (fs : List Field) (s : State) : Answer × State :=
  let t := s.tables
  let k := stationKeyOf fs
  if (Table.find k t.stations).isNone then (.bare .noSuch, s)
  else
    let u := { t with stations := Table.drop k t.stations }
    (.ok [(.free, u.free)], s.setTables u)

/-- The fields of a station record behind its STATION (R46, R47). -/
def Station.fields (st : Station) : List Field :=
  [(.position, st.position), (.profile, (st.profile : Int))] ++ optionalField .settle (st.settle.map Int.ofNat)

/-- GET-STATION (R46). -/
def getStationRule (fs : List Field) (s : State) : Answer × State :=
  match Table.find (stationKeyOf fs) s.tables.stations with
  | none => (.bare .noSuch, s)
  | some st => (.ok ((.axis, fieldInt fs .axis) :: (.station, fieldInt fs .station) :: st.fields), s)

/-- The records of an axis from a station number on, by rising station number (R47). -/
def stationsFrom (a : AxisId) (first : Nat) (ss : Table Station) : List (Nat × Station) :=
  (ss.filter (fun e => decide (stationKey a first ≤ e.1) && decide (e.1 ≤ stationKey a 999))).map
    (fun e => (e.1 - stationKey a 0, e.2))

/-- The group of a station record (R47). -/
def stationGroup (e : Nat × Station) : List Field := (.station, (e.1 : Int)) :: e.2.fields

/-- The reply of LIST-STATIONS (R47, R197): up to 12 groups, as far as they fit, and NEXT when a record is left. -/
def stationPage (es : List (Nat × Station)) : Answer :=
  let groups := es.map stationGroup
  let n := min Config.stationPage (placed (fieldSize (.next, 0)) 3 groups)
  ⟨.ok, [], groups.take n, optionalField .next ((es[n]?).map (fun e => (e.1 : Int)))⟩

/-- LIST-STATIONS (R47). -/
def listStationsRule (fs : List Field) (s : State) : Answer × State :=
  (stationPage (stationsFrom (fieldAxis fs) ((fieldValue fs .first).elim 1 Int.toNat) s.tables.stations), s)

/-- The profile entry of a PUT-PROFILE (R49). -/
def profileOf (fs : List Field) : Profile where
  slow := fieldNat fs .slowDist
  cut := fieldNat fs .cutDist
  window := fieldNat fs .windowDist
  approach := Approach.ofCode (fieldInt fs .approach)
  takeup := fieldNat fs .takeupDist
  settle := fieldNat fs .settle
  corrections := fieldNat fs .corrections
  timeLimit := fieldNat fs .timeLimit

/-- PUT-PROFILE (R49). -/
def putProfileRule (fs : List Field) (s : State) : Answer × State :=
  let p := profileOf fs
  let n := fieldNat fs .profile
  if p.slow ≠ 0 ∧ p.slow < p.cut then (.detail .badValue FieldId.cutDist.code, s)
  else
    (.ok [(.created, flagValue !s.tables.defined n)],
      s.setTables { s.tables with profiles := Table.put n p s.tables.profiles })

/-- The fields of a profile entry (R51). -/
def Profile.fields (p : Profile) : List Field :=
  [(.timeLimit, p.timeLimit), (.settle, p.settle), (.slowDist, p.slow), (.cutDist, p.cut), (.windowDist, p.window),
    (.approach, p.approach.code), (.takeupDist, p.takeup), (.corrections, p.corrections)]

/-- GET-PROFILE (R51). -/
def getProfileRule (fs : List Field) (s : State) : Answer × State :=
  match Table.find (fieldNat fs .profile) s.tables.profiles with
  | none => (.bare .noSuch, s)
  | some p => (.ok ((.profile, fieldInt fs .profile) :: p.fields), s)

/-- Whether an order that has not started carries a profile entry in its own PROFILE field (R50). -/
def State.profileAwaited (s : State) (n : Nat) : Bool :=
  AxisId.all.any (fun a => (s.axis a).queue.any (fun o => decide (o.profile = some n)))

/-- DROP-PROFILE (R50). -/
def dropProfileRule (fs : List Field) (s : State) : Answer × State :=
  let n := fieldNat fs .profile
  if s.tables.defined n = false then (.bare .noSuch, s)
  else if s.tables.stations.any (fun e => e.2.profile == n) then (.bare .inUse, s)
  else if s.profileAwaited n then (.bare .inUse, s)
  else (.ok [], s.setTables { s.tables with profiles := Table.drop n s.tables.profiles })

/-- PUT-STATION. -/
def execPutStation (s : State) : Host.Outcome State Fault Refusal := .next (s.execute .putStation putStationRule)

/-- DROP-STATION. -/
def execDropStation (s : State) : Host.Outcome State Fault Refusal := .next (s.execute .dropStation dropStationRule)

/-- GET-STATION. -/
def execGetStation (s : State) : Host.Outcome State Fault Refusal := .next (s.execute .getStation getStationRule)

/-- LIST-STATIONS. -/
def execListStations (s : State) : Host.Outcome State Fault Refusal := .next (s.execute .listStations listStationsRule)

/-- PUT-PROFILE. -/
def execPutProfile (s : State) : Host.Outcome State Fault Refusal := .next (s.execute .putProfile putProfileRule)

/-- GET-PROFILE. -/
def execGetProfile (s : State) : Host.Outcome State Fault Refusal := .next (s.execute .getProfile getProfileRule)

/-- DROP-PROFILE. -/
def execDropProfile (s : State) : Host.Outcome State Fault Refusal := .next (s.execute .dropProfile dropProfileRule)

end Sys2Proof.Machine
end

