-- ==== Sys2Proof/Machine/QueueRequests.lean ====
section
/-! DEFINITION. The requests of the move queue (C04): ENQUEUE, CANCEL, HOLD, RELEASE, STOP, LIST-ORDERS. -/

namespace Sys2Proof.Machine

/-! ### ENQUEUE -/

/-- Where the order of an ENQUEUE goes (R59). -/
def destinationOf (fs : List Field) : Destination :=
  match fieldValue fs .station with
  | some n => .station n.toNat ((fieldValue fs .profile).map Int.toNat)
  | none => .target (fieldInt fs .target) (fieldNat fs .profile)

/-- The order of an ENQUEUE, with its defaults (R59, R61). -/
def orderOf (fs : List Field) : Order where
  tag := fieldNat fs .orderTag
  destination := destinationOf fs
  settle := (fieldValue fs .settle).map Int.toNat
  chain := Chain.ofCode (fieldInt fs .chain)
  notify := fieldInt fs .notify == 1

/-- What ENQUEUE is refused for, if anything (R60). -/
def Axis.refusesOrder (a : AxisId) (t : TableStore) (o : Order) (x : Axis) : Option Answer :=
  if x.driven = false then some (.bare .wrongState)
  else if Config.queue ≤ x.moveQueue.length then some (.bare .full)
  else if x.moveQueue.any (fun e => e.tag == o.tag) then some (.detail .exists_ FieldId.orderTag.code)
  else
    match t.place a o.destination with
    | none => some (.detail .noSuch FieldId.station.code)
    | some (_, n, _) =>
      if t.defined n = false then some (.detail .noSuch FieldId.profile.code)
      else if x.counting.reference = .unreferenced ∧ x.motion.isHoming = false then some (.bare .notReferenced)
      else none

/-- ENQUEUE (R60, R61). -/
def enqueueRule (fs : List Field) (s : State) : Answer × State :=
  let a := fieldAxis fs
  let x := s.axis a
  let o := orderOf fs
  match x.refusesOrder a s.tables o with
  | some r => (r, s)
  | none => (.ok [(.queueLength, x.moveQueue.length + 1)], s.setAxis a { x with queue := x.queue ++ [o] })

/-! ### CANCEL -/

/-- The motion state after an order that has not started was removed: a WAITING axis whose queue is now empty is IDLE
(R72, R73). -/
def Motion.afterRemoval (left : List Order) (m : Motion) : Motion :=
  if m = .waiting ∧ left = [] then .idle else m

/-- CANCEL of one tag held in the queue (R72, R73). -/
def Axis.cancelTag (a : AxisId) (now : Time) (tag : Nat) (x : Axis) : Taken :=
  match x.motion.active with
  | some o =>
    if o.order.tag = tag then x.endOrder a now o .cancelled
    else
      ({ x with queue := x.queue.filter (fun e => e.tag != tag) },
        x.cancelled a (x.queue.filter (fun e => e.tag == tag)))
  | none =>
    let left := x.queue.filter (fun e => e.tag != tag)
    ({ x with queue := left, motion := x.motion.afterRemoval left },
      x.cancelled a (x.queue.filter (fun e => e.tag == tag)))

/-- CANCEL with ALL (R73): the active order first, then the others, oldest first. -/
def Axis.cancelAll (a : AxisId) (now : Time) (x : Axis) : Taken :=
  let e :=
    match x.motion with
    | .moving o => x.endOrder a now o .cancelled
    | .idle | .held | .waiting | .homing _ | .jogging _ | .faulted => (x, [])
  ({ e.1 with queue := [], motion := e.1.motion.afterRemoval [] }, e.2 ++ e.1.cancelled a x.queue)

/-- CANCEL (R72, R73). -/
def cancelRule (fs : List Field) (s : State) : Answer × State :=
  let a := fieldAxis fs
  let x := s.axis a
  if carries fs .all then
    (.ok [(.removed, x.moveQueue.length)], s.take a (Axis.cancelAll a s.timebase))
  else if x.moveQueue.any (fun e => e.tag == fieldNat fs .orderTag) then
    (.ok [(.removed, (x.moveQueue.countP (fun e => e.tag == fieldNat fs .orderTag) : Int))],
      s.take a (Axis.cancelTag a s.timebase (fieldNat fs .orderTag)))
  else (.bare .noSuch, s)

/-! ### HOLD, RELEASE, STOP -/

/-- An accepted HOLD (R74). -/
def Axis.hold (x : Axis) : Axis :=
  match x.motion with
  | .idle | .waiting => { x with motion := .held, holdPending := false }
  | .moving _ | .homing _ => { x with holdPending := true }
  | .held | .jogging _ | .faulted => x

/-- Whether HOLD is refused (R74). -/
def Motion.refusesHold : Motion → Bool
  | .jogging _ | .faulted => true
  | .idle | .held | .waiting | .moving _ | .homing _ => false

/-- HOLD (R74). -/
def holdRule (fs : List Field) (s : State) : Answer × State :=
  let a := fieldAxis fs
  let x := s.axis a
  if x.motion.refusesHold then (.bare .wrongState, s)
  else
    (.ok [(.motion, x.hold.motion.code), (.holdPending, flagValue x.hold.holdPending)], s.modifyAxis a Axis.hold)

/-- RELEASE on an axis (R75). -/
def Axis.release (x : Axis) : Axis :=
  { x with motion := if x.motion = .held then .idle else x.motion, holdPending := false }

/-- RELEASE (R75). -/
def releaseRule (fs : List Field) (s : State) : Answer × State :=
  let a := fieldAxis fs
  (.ok [(.motion, (s.axis a).release.motion.code)], s.modifyAxis a Axis.release)

/-- STOP on an axis, without its flush (R76). -/
def Axis.halt (a : AxisId) (now : Time) (x : Axis) : Taken :=
  match x.motion with
  | .moving _ | .homing _ | .jogging _ => x.endOperation a now .stopped
  | .idle | .held | .waiting => ({ x with motion := .held, holdPending := false }, [])
  | .faulted => ({ x with holdPending := false }, [])

/-- The flush of STOP (R76): every order that has not started is removed, oldest first. -/
def Axis.flush (a : AxisId) (x : Axis) : Taken := ({ x with queue := [] }, x.cancelled a x.queue)

/-- STOP on an axis (R76). -/
def Axis.stop (a : AxisId) (now : Time) (flush : Bool) (x : Axis) : Taken :=
  let e := x.halt a now
  let f := if flush then e.1.flush a else (e.1, [])
  (f.1, e.2 ++ f.2)

/-- STOP (R76). -/
def stopRule (fs : List Field) (s : State) : Answer × State :=
  let a := fieldAxis fs
  let x := s.axis a
  let flush := fieldInt fs .flush == 1
  let t := s.take a (Axis.stop a s.timebase flush)
  (.ok [(.motion, (t.axis a).motion.code), (.removed, if flush then (x.queue.length : Int) else 0)], t)

/-! ### LIST-ORDERS -/

/-- The fields of an order in its group (R78). -/
def Order.fields (o : Order) : List Field :=
  (.orderTag, (o.tag : Int)) ::
    ((match o.destination with
      | .station n p => (.station, (n : Int)) :: optionalField .profile (p.map Int.ofNat)
      | .target t p => [(.target, t), (.profile, (p : Int))]) ++
      optionalField .settle (o.settle.map Int.ofNat) ++
      [(.chain, (o.chain.code : Int)), (.notify, flagValue o.notify)])

/-- The fields the active order carries besides (R78); DIRECTION is that of the present or most recent leg (R79). -/
def ActiveOrder.fields (o : ActiveOrder) : List Field :=
  [(.active, 1), (.resolvedTarget, o.target), (.resolvedProfile, o.profileNo), (.slowDist, o.snapshot.slow),
    (.cutDist, o.snapshot.cut), (.windowDist, o.snapshot.window), (.approach, o.snapshot.approach.code),
    (.takeupDist, o.snapshot.takeup), (.corrections, o.snapshot.corrections), (.timeLimit, o.snapshot.timeLimit),
    (.resolvedSettle, o.settle), (.direction, dirCode o.leg), (.takeup, flagValue o.takeup),
    (.correctionsUsed, o.corrections)]

/-- The groups of the queue of an axis, oldest first (R78). -/
def Axis.orderGroups (x : Axis) : List (List Field) :=
  match x.motion with
  | .moving o => (o.order.fields ++ o.fields) :: x.queue.map Order.fields
  | .idle | .held | .waiting | .homing _ | .jogging _ | .faulted => x.queue.map Order.fields

/-- The reply of LIST-ORDERS (R78, R197): MOTION and HOLD-PENDING, the groups behind SKIP as far as they fit, and MORE
when orders remain. -/
def Axis.orderPage (skip : Nat) (x : Axis) : Answer :=
  let groups := x.orderGroups.drop skip
  let n := placed (fieldSize (.more, 0)) 9 groups
  ⟨.ok, [(.motion, x.motion.code), (.holdPending, flagValue x.holdPending)], groups.take n,
    if n < groups.length then [(.more, (groups.length : Int) - n)] else []⟩

/-- LIST-ORDERS (R78). -/
def listOrdersRule (fs : List Field) (s : State) : Answer × State :=
  ((s.axis (fieldAxis fs)).orderPage (fieldNat fs .skip), s)

/-- ENQUEUE. -/
def execEnqueue (s : State) : Host.Outcome State Fault Refusal := .next (s.execute .enqueue enqueueRule)

/-- CANCEL. -/
def execCancel (s : State) : Host.Outcome State Fault Refusal := .next (s.execute .cancel cancelRule)

/-- HOLD. -/
def execHold (s : State) : Host.Outcome State Fault Refusal := .next (s.execute .hold holdRule)

/-- RELEASE. -/
def execRelease (s : State) : Host.Outcome State Fault Refusal := .next (s.execute .release releaseRule)

/-- STOP. -/
def execStop (s : State) : Host.Outcome State Fault Refusal := .next (s.execute .stop stopRule)

/-- LIST-ORDERS. -/
def execListOrders (s : State) : Host.Outcome State Fault Refusal := .next (s.execute .listOrders listOrdersRule)

end Sys2Proof.Machine
end

