-- ==== Sys2Proof/Machine/JogRequests.lean ====
section
/-! DEFINITION. JOG (C06). -/

namespace Sys2Proof.Machine

/-- The direction a JOG carries; NONE is the code 0 (R113, table 11-6). -/
def jogDirection (fs : List Field) : Option Dir :=
  if fieldInt fs .direction = 0 then none else some (Dir.ofCode (fieldInt fs .direction))

/-- Whether JOG is refused WRONG-STATE at check 3 (R114). -/
def Motion.refusesJog : Motion → Bool
  | .moving _ | .homing _ => true
  | .idle | .held | .waiting | .jogging _ | .faulted => false

/-- An accepted JOG (R115, R116). -/
def State.jog (s : State) (a : AxisId) (dir : Option Dir) (sp : Speed) (deadman : Nat) : State :=
  match dir with
  | none => s.take a (Axis.jogNone a s.timebase)
  | some d => s.modifyAxis a (Axis.jog s.timebase d sp deadman)

/-- Whether a limit window is against the direction of a JOG (R114 check 4). -/
def WindowMonitor.limitsJog (w : WindowMonitor) (a : AxisId) : Option Dir → Bool
  | none => false
  | some d => w.limitAgainst a d

/-- JOG (R113 to R116). -/
def jogRule (fs : List Field) (s : State) : Answer × State :=
  let a := fieldAxis fs
  let x := s.axis a
  if x.driven = false then (.bare .wrongState, s)
  else if x.motion.isFaulted then (.bare .faulted, s)
  else if x.motion.refusesJog then (.bare .wrongState, s)
  else if s.monitor.limitsJog a (jogDirection fs) then (.bare .limited, s)
  else
    let t := s.jog a (jogDirection fs) (Speed.ofCode (fieldInt fs .speed)) ((fieldValue fs .deadman).elim 500 Int.toNat)
    (.ok [(.motion, (t.axis a).motion.code), (.lines, (t.axis a).lines.code)], t)

/-- JOG. -/
def execJog (s : State) : Host.Outcome State Fault Refusal := .next (s.execute .jog jogRule)

end Sys2Proof.Machine
end

