-- ==== Sys2Proof/Machine/MonitorRequests.lean ====
section
/-! DEFINITION. The requests of the Window Monitor (C07): windows, guards and auxiliary outputs. -/

namespace Sys2Proof.Machine

/-! ### Windows -/

/-- The window of a PUT-WINDOW with its defaults (R136), not yet tested. -/
def windowOf (fs : List Field) : Window where
  axis := fieldAxis fs
  lower := fieldInt fs .lower
  upper := fieldInt fs .upper
  output := fieldNat fs .output
  report := Report.ofCode (fieldInt fs .report)
  limitRole := LimitRole.ofCode (fieldInt fs .limitRole)
  occupancy := .unknown

/-- What the bounds of a window are refused for on an axis, if anything (R136). -/
def Window.badBound (c : AxisConfig) (v : Window) : Option FieldId :=
  match c.kind with
  | .linear => if v.upper < v.lower then some .upper else none
  | .rotary =>
    if within 0 (c.modulus - 1) v.lower = false then some .lower
    else if within 0 (c.modulus - 1) v.upper = false then some .upper
    else none

/-- An accepted PUT-WINDOW (R137): occupancy, outputs, guards, limit claim. -/
def State.putWindow (s : State) (n : Nat) (v : Window) : State :=
  let x := s.axis v.axis
  let ws := Table.put n { v with occupancy := v.test x } s.monitor.windows
  (s.setMonitor { s.monitor with hostValues := s.monitor.hostAfter ws }).monitorTakes x.position ws
    (fun g => g.members.contains n)
    (fun m w => decide (m = n) && decide (w.occupancy = .occupied))

/-- PUT-WINDOW (R136, R137). -/
def putWindowRule (fs : List Field) (s : State) : Answer × State :=
  let v := windowOf fs
  let n := fieldNat fs .window
  match v.badBound (s.axis v.axis).config with
  | some f => (.detail .badValue f.code, s)
  | none =>
    (.ok [(.created, flagValue (Table.find n s.monitor.windows).isNone), (.occupancy, (v.test (s.axis v.axis)).code)],
      s.putWindow n v)

/-- An accepted DROP-WINDOW (R138, R146). -/
def WindowMonitor.dropWindow (n : Nat) (w : WindowMonitor) : WindowMonitor :=
  let ws := Table.drop n w.windows
  { w with windows := ws, hostValues := w.hostAfter ws }

/-- DROP-WINDOW (R138). -/
def dropWindowRule (fs : List Field) (s : State) : Answer × State :=
  let n := fieldNat fs .window
  if (Table.find n s.monitor.windows).isNone then (.bare .noSuch, s)
  else if s.monitor.guards.any (fun e => e.2.members.contains n) then (.bare .inUse, s)
  else (.ok [], s.setMonitor (s.monitor.dropWindow n))

/-- The fields of a window record (R139). -/
def Window.fields (v : Window) : List Field :=
  [(.axis, v.axis.num), (.lower, v.lower), (.upper, v.upper), (.output, v.output), (.report, v.report.code),
    (.limitRole, v.limitRole.code), (.occupancy, v.occupancy.code)]

/-- GET-WINDOW (R139). -/
def getWindowRule (fs : List Field) (s : State) : Answer × State :=
  match Table.find (fieldNat fs .window) s.monitor.windows with
  | none => (.bare .noSuch, s)
  | some v => (.ok ((.window, fieldInt fs .window) :: v.fields), s)

/-! ### Guards -/

/-- The guard of a PUT-GUARD, in the state the slot held; a new guard begins CLEAR (R141). -/
def guardOf (fs : List Field) (old : Table Guard) : Guard where
  members := (fieldList fs .member).map Int.toNat
  stopAxes := (fieldList fs .stopAxis).map AxisId.ofNum
  state := guardStateAt old (fieldNat fs .guard)

/-- What the lists of a guard are refused for, if anything (R140). -/
def Guard.refused (ws : Table Window) (g : Guard) : Option Answer :=
  if g.members.length < 2 ∨ 4 < g.members.length ∨ ¬ g.members.Nodup then
    some (.detail .badValue FieldId.member.code)
  else if g.stopAxes.length < 1 ∨ 4 < g.stopAxes.length ∨ ¬ g.stopAxes.Nodup then
    some (.detail .badValue FieldId.stopAxis.code)
  else if g.members.all (fun n => (Table.find n ws).isSome) = false then
    some (.detail .noSuch FieldId.member.code)
  else none

/-- The stop claims of a guard that was TRIPPED and stays TRIPPED under a write: to each new stop axis (R141). -/
def addedStops (old : Table Guard) (n : Nat) (g : Guard) : List (AxisId × Claim) :=
  match Table.find n old with
  | none => []
  | some h =>
    if h.state = .tripped ∧ g.state = .tripped then
      (g.stopAxes.filter (fun a => !h.stopAxes.contains a)).map (fun a => (a, .stop))
    else []

/-- An accepted PUT-GUARD with its guard evaluated (R141). -/
def State.putGuard (s : State) (n : Nat) (g : Guard) : State :=
  let old := s.monitor
  let new := { old with guards := Table.put n g old.guards }
  ((s.setMonitor new).offers (guardNotices old.guards new.guards)).sends
    (stopClaims old.guards new.guards ++ addedStops old.guards n g ++ releases old new)

/-- PUT-GUARD (R140, R141). -/
def putGuardRule (fs : List Field) (s : State) : Answer × State :=
  let n := fieldNat fs .guard
  let w := s.monitor
  let g := guardOf fs w.guards
  match g.refused w.windows with
  | some r => (r, s)
  | none =>
    let h := { g with state := g.next w.windows }
    (.ok [(.created, flagValue (Table.find n w.guards).isNone), (.guardState, h.state.code)], s.putGuard n h)

/-- An accepted DROP-GUARD (R142). -/
def State.dropGuard (s : State) (n : Nat) : State :=
  let new := { s.monitor with guards := Table.drop n s.monitor.guards }
  (s.setMonitor new).sends (releases s.monitor new)

/-- DROP-GUARD (R142). -/
def dropGuardRule (fs : List Field) (s : State) : Answer × State :=
  let n := fieldNat fs .guard
  if (Table.find n s.monitor.guards).isNone then (.bare .noSuch, s) else (.ok [], s.dropGuard n)

/-- The fields of a guard record, its lists in the order they were written (R143). -/
def Guard.fields (g : Guard) : List Field :=
  g.members.map (fun n => (.member, (n : Int))) ++ g.stopAxes.map (fun a => (.stopAxis, (a.num : Int))) ++
    [(.guardState, (g.state.code : Int))]

/-- GET-GUARD (R143). -/
def getGuardRule (fs : List Field) (s : State) : Answer × State :=
  match Table.find (fieldNat fs .guard) s.monitor.guards with
  | none => (.bare .noSuch, s)
  | some g => (.ok ((.guard, fieldInt fs .guard) :: g.fields), s)

/-! ### Outputs -/

/-- The outputs a SET-OUTPUTS reply carries (R145). -/
def WindowMonitor.outputFields (w : WindowMonitor) : List Field :=
  [(.outputs, w.on.toNat), (.windowOwned, w.owned.toNat)]

/-- The host values after an accepted SET-OUTPUTS (R145). -/
def WindowMonitor.setHost (mask values : BitVec 8) (w : WindowMonitor) : WindowMonitor :=
  { w with hostValues := (w.hostValues &&& ~~~mask) ||| (values &&& mask) }

/-- SET-OUTPUTS (R145). -/
def setOutputsRule (fs : List Field) (s : State) : Answer × State :=
  let mask := BitVec.ofInt 8 (fieldInt fs .mask)
  let values := BitVec.ofInt 8 (fieldInt fs .values)
  if mask &&& s.monitor.owned ≠ 0 then (⟨.owned, s.monitor.outputFields, [], []⟩, s)
  else
    let w := s.monitor.setHost mask values
    (.ok w.outputFields, s.setMonitor w)

/-- PUT-WINDOW. -/
def execPutWindow (s : State) : Host.Outcome State Fault Refusal := .next (s.execute .putWindow putWindowRule)

/-- DROP-WINDOW. -/
def execDropWindow (s : State) : Host.Outcome State Fault Refusal := .next (s.execute .dropWindow dropWindowRule)

/-- GET-WINDOW. -/
def execGetWindow (s : State) : Host.Outcome State Fault Refusal := .next (s.execute .getWindow getWindowRule)

/-- PUT-GUARD. -/
def execPutGuard (s : State) : Host.Outcome State Fault Refusal := .next (s.execute .putGuard putGuardRule)

/-- DROP-GUARD. -/
def execDropGuard (s : State) : Host.Outcome State Fault Refusal := .next (s.execute .dropGuard dropGuardRule)

/-- GET-GUARD. -/
def execGetGuard (s : State) : Host.Outcome State Fault Refusal := .next (s.execute .getGuard getGuardRule)

/-- SET-OUTPUTS. -/
def execSetOutputs (s : State) : Host.Outcome State Fault Refusal := .next (s.execute .setOutputs setOutputsRule)

end Sys2Proof.Machine
end

