-- ==== Sys2Proof/Machine/CaptureRequests.lean ====
section
/-! DEFINITION. SET-CAPTURE and READ-CAPTURES (C08). -/

namespace Sys2Proof.Machine

/-- SET-CAPTURE on an axis (R147). -/
def Axis.setCapture (m : CaptureMode) (x : Axis) : Axis := { x with log := { x.log with mode := m } }

/-- SET-CAPTURE (R147). -/
def setCaptureRule (fs : List Field) (s : State) : Answer × State :=
  let a := fieldAxis fs
  let m := CaptureMode.ofCode (fieldInt fs .captureMode)
  (.ok [(.captureMode, m.code), (.captures, (s.axis a).log.ring.length)], s.modifyAxis a (Axis.setCapture m))

/-- The group of a capture record (R154). -/
def Capture.fields (r : Capture) : List Field :=
  [(.captureNo, (r.number : Int)), (.edge, r.edge.code), (.rawCount, r.raw.toInt), (.time, r.time.toNat),
    (.overwrote, flagValue r.overwrote)] ++ optionalField .position r.position ++
    optionalField .orderTag (r.orderTag.map Int.ofNat)

/-- READ-CAPTURES on an axis (R154). -/
def Axis.readCaptures (n : Nat) (x : Axis) : Axis := { x with log := { x.log with ring := x.log.ring.drop n } }

/-- READ-CAPTURES (R154). -/
def readCapturesRule (fs : List Field) (s : State) : Answer × State :=
  let a := fieldAxis fs
  let n := fieldNat fs .count
  let ring := (s.axis a).log.ring
  (⟨.ok, [], (ring.take n).map Capture.fields, [(.remaining, ((ring.drop n).length : Int))]⟩,
    s.modifyAxis a (Axis.readCaptures n))

/-- SET-CAPTURE. -/
def execSetCapture (s : State) : Host.Outcome State Fault Refusal := .next (s.execute .setCapture setCaptureRule)

/-- READ-CAPTURES. -/
def execReadCaptures (s : State) : Host.Outcome State Fault Refusal := .next (s.execute .readCaptures readCapturesRule)

end Sys2Proof.Machine
end

