-- ==== Sys2Proof/Machine/NoticeRequests.lean ====
section
/-! DEFINITION. ACK-NOTICES and RESEND-NOTICES (C09). -/

namespace Sys2Proof.Machine

/-- Whether the queue holds a notice of a number that is SENT (R162). -/
def NoticeQueue.holdsSent (n : Nat) (q : NoticeQueue) : Bool := q.entries.any (fun e => e.seq == n && e.sent)

/-- How many notices an acknowledgement removes: the one named and every older one (R162). -/
def NoticeQueue.ackCount (n : Nat) (q : NoticeQueue) : Nat := q.entries.findIdx (fun e => e.seq == n && e.sent) + 1

/-- The queue after an acknowledgement (R162). -/
def NoticeQueue.ack (n : Nat) (q : NoticeQueue) : NoticeQueue := { q with entries := q.entries.drop (q.ackCount n) }

/-- The COUNT of the marker among some notices, if one is among them (R162). -/
def markerCount (es : List Notice) : Option Nat :=
  es.findSome? (fun e =>
    match e.body with
    | .discarded c => some c
    | _ => none)

/-- ACK-NOTICES (R162). -/
def ackNoticesRule (fs : List Field) (s : State) : Answer × State :=
  let q := s.notices
  let n := fieldNat fs .seq
  if q.holdsSent n then
    (.ok ([(.queued, ((q.ack n).entries.length : Int)), (.removed, ((q.entries.take (q.ackCount n)).length : Int))] ++
        optionalField .discarded ((markerCount (q.entries.take (q.ackCount n))).map Int.ofNat)),
      s.setNotices (q.ack n))
  else (.bare .noSuch, s)

/-- RESEND-NOTICES (R163). -/
def resendNoticesRule (_fs : List Field) (s : State) : Answer × State :=
  (.ok [(.resent, s.notices.sentCount)], s.setNotices s.notices.unsend)

/-- ACK-NOTICES. -/
def execAckNotices (s : State) : Host.Outcome State Fault Refusal := .next (s.execute .ackNotices ackNoticesRule)

/-- RESEND-NOTICES. -/
def execResendNotices (s : State) : Host.Outcome State Fault Refusal :=
  .next (s.execute .resendNotices resendNoticesRule)

end Sys2Proof.Machine
end

