-- ==== Sys2Proof/Machine/Resets.lean ====
section
/-! DEFINITION. The reset of the part (R192) and link loss (R188). -/

namespace Sys2Proof.Machine

/-- A RUN-off that a reset enters (R111): timebase value 0, and the lockout timer started with the REVERSAL-GAP of the
reset. -/
def RunOff.atReset (line : Dir) : RunOff := ⟨line, 0, some (Timer.start AxisConfig.reset.reversalGap), 0⟩

/-- The lockout record a reset leaves (R111): the RUN-off of the line that was on when the reset was taken. Where RESETN
was already low, the reset was taken then, and its RUN-off stays with the lockout timer started at this later end of the
reset. -/
def Axis.resetLockout (low : Bool) (x : Axis) : Option RunOff :=
  match x.lines with
  | .run d _ => some (.atReset d)
  | .off => if low then x.lockout.map (fun r => .atReset r.line) else none

/-- One axis at a reset (R5, R20, R35, R57, R110, R111, R148); its input pins keep their levels. -/
def Axis.resetTo (low : Bool) (x : Axis) : Axis := { Axis.reset x.pins with lockout := x.resetLockout low }

/-- A reset that reads the given straps (R192). The waiting commands stay: they are the outside's. -/
def State.resetTo (s : State) (cause : Cause) (straps : Straps) (held : Bool) : State where
  axes := s.axes.map (Axis.resetTo s.link.resetnLow)
  tables := ⟨[], []⟩
  monitor := ⟨[], [], 0⟩
  notices := .reset cause
  link := .reset straps held
  timebase := 0
  micros := 0
  pending := s.pending

/-- RESETN, or power-up: a reset with cause POWER (R192). With `pins.held` RESETN is low from now on; the next RESET without
it is the release, which ends the reset (notes/assumptions/8.md, 10.md). -/
def execReset (pins : ResetPins) (s : State) : Host.Outcome State Fault Refusal :=
  .next (s.resetTo .power pins.straps pins.held)

/-! ### Link loss (R188) -/

/-- The Link Port at link loss (R188 steps 1 to 3). -/
def LinkPort.lose (l : LinkPort) : LinkPort :=
  { l with session := .closed, keepalive := none, intake := [], replies := [], cache := [] }

/-- An Axis Controller at link loss (R188 steps 4 and 5). -/
def Axis.linkLost (a : AxisId) (now : Time) (x : Axis) : Taken :=
  let e := x.endOperation a now .linkLost
  (e.1.holdQueue, e.2)

/-- The axes in motion, in increasing number (R188 step 7). -/
def State.moving (s : State) : List AxisId := AxisId.all.filter (fun a => (s.axis a).motion.inMotion)

/-- What one block does at a link loss that stops the given axes: an Axis Controller takes its claim, the Link Port
offers LINK-LOST. -/
def State.lossAt (stopped : List AxisId) (s : State) : Block → State
  | .axisController a => s.take a (Axis.linkLost a s.timebase)
  | .linkPort => s.offer (.linkLost stopped s.timebase)
  | .windowMonitor => s
  | .captureLog => s
  | .orderStart _ => s

/-- The blocks that offer notices at a link loss. -/
def lossBlocks : List Block :=
  [.axisController .axis0, .axisController .axis1, .axisController .axis2, .axisController .axis3, .linkPort]

/-- Link loss, its notices offered in the order given (R188, R164). -/
def State.linkLoss (s : State) (order : List Block) : State :=
  (Block.arrange order lossBlocks).foldl (State.lossAt s.moving)
    ((s.setLink s.link.lose).setNotices s.notices.unsend)

/-- A RESTART whose reply the loss has discarded resets the part at once, with the straps as they stand then (R191,
R170). -/
def State.restartAfterLoss (straps : Straps) (s : State) : State :=
  match s.link.restart with
  | .replyWaiting => s.resetTo .request straps false
  | .none | .replySending => s

/-- A command that a timer's expiry makes: the clock runs to the expiry and the effect follows. Without the timer running,
or while another timer has to expire first, it changes nothing (R199; notes/assumptions/2.md). -/
def State.expire (s : State) (t : Option Timer) (late : Nat) (effect : State → State) : State :=
  match t with
  | none => s
  | some t => if s.mayRun (t.wait late) then effect (s.runTo t late) else s

/-- The keepalive timer expires (R186, R188, R191). -/
def execKeepaliveExpiry (order : List Block) (moment : Moment) (s : State) : Host.Outcome State Fault Refusal :=
  .next (s.expire s.link.keepalive moment.late (fun t =>
    match t.link.session with
    | .closed => t
    | .opened => (t.linkLoss order).restartAfterLoss moment.straps))

end Sys2Proof.Machine
end

