-- ==== Sys2Proof/Machine/Receiver.lean ====
section
/-! DEFINITION. The receiver (C10 section 10.1): the framer, the gap timer, the check of a complete frame. -/

namespace Sys2Proof.Machine

/-- The FORMAT counter rises by 1 (R175). -/
def LinkPort.countFormat (l : LinkPort) : LinkPort :=
  { l with counters := { l.counters with format := saturate l.counters.format } }

/-- The CRC counter rises by 1 (R175). -/
def LinkPort.countCrc (l : LinkPort) : LinkPort :=
  { l with counters := { l.counters with crc := saturate l.counters.crc } }

/-- The GAP counter rises by 1 (R175). -/
def LinkPort.countGap (l : LinkPort) : LinkPort :=
  { l with counters := { l.counters with gap := saturate l.counters.gap } }

/-- The DROPPED counter rises by 1 (R175). -/
def LinkPort.countDropped (l : LinkPort) : LinkPort :=
  { l with counters := { l.counters with dropped := saturate l.counters.dropped } }

/-- The gap timer, just started (R172). -/
def gapTimer : Timer := Timer.start Config.frameGap

/-- The framer in BODY has taken the bytes so far: the frame is complete with its second CRC byte (R171). -/
def LinkPort.bodyTaken (len : Byte) (taken : List Byte) (l : LinkPort) : LinkPort :=
  if taken.length < len.toNat + 2 then { l with framer := .body len taken gapTimer }
  else
    { l with
      framer := .hunt
      completed :=
        l.completed ++ [⟨len, taken.take len.toNat, (taken[len.toNat]?).getD 0, (taken[len.toNat + 1]?).getD 0⟩] }

/-- The framer takes a byte (R171, R172). -/
def LinkPort.takeByte (b : Byte) (l : LinkPort) : LinkPort :=
  match l.framer with
  | .hunt => if b = Config.sync then { l with framer := .length gapTimer } else l
  | .length _ =>
    if Config.minBody ≤ b.toNat ∧ b.toNat ≤ Config.maxBody then { l with framer := .body b [] gapTimer }
    else { l with framer := .hunt }.countFormat
  | .body len taken _ => l.bodyTaken len (taken ++ [b])

/-- The framer takes a damaged byte (R170): outside a frame it is disregarded; inside, the frame is abandoned. -/
def LinkPort.takeDamaged (l : LinkPort) : LinkPort :=
  match l.framer with
  | .hunt => l
  | .length _ | .body .. => { l with framer := .hunt }.countFormat

/-- What RXD brings (R170); nothing is taken while RESETN is low (R192). A break is a run of damaged bytes, of which the
first inside a frame acts (notes/assumptions/25.md). -/
def LinkPort.takeEvent (e : LineEvent) (l : LinkPort) : LinkPort :=
  if l.resetnLow then l
  else
    match e with
    | .byte b => l.takeByte b
    | .damaged => l.takeDamaged
    | .breakSignal => l.takeDamaged

/-- A byte, a damaged byte or a break on RXD. -/
def execByteReceived (e : LineEvent) (s : State) : Host.Outcome State Fault Refusal :=
  .next (s.setLink (s.link.takeEvent e))

/-- The gap timer expires: the frame is abandoned and counted in GAP (R172). -/
def execFrameGapExpiry (late : Nat) (s : State) : Host.Outcome State Fault Refusal :=
  .next (s.expire s.link.framer.gap late (fun t => t.setLink { t.link with framer := .hunt }.countGap))

/-- Whether a complete frame is good: its CRC matches (R173). -/
def RxFrame.good (f : RxFrame) : Bool :=
  decide (crc16 (f.len :: f.body) = f.crcHigh.setWidth 16 <<< 8 ||| f.crcLow.setWidth 16)

/-- The request in the body of a good frame, by its KIND (R174, table 11-2); none for any other KIND. -/
def requestOf : List Byte → Option Request
  | kind :: tag :: code :: area =>
    if kind = 1 then some ⟨false, tag, code, area⟩ else if kind = 2 then some ⟨true, tag, code, area⟩ else none
  | _ => none

/-- A request joins the intake, or is dropped and counted when four are held (R176). -/
def LinkPort.joinIntake (r : Request) (l : LinkPort) : LinkPort :=
  if l.intake.length < Config.intake then { l with intake := l.intake ++ [r] } else l.countDropped

/-- A good frame restarts the keepalive timer of an OPEN session (R174, R186). -/
def LinkPort.alive (l : LinkPort) : LinkPort :=
  match l.session with
  | .closed => l
  | .opened => { l with keepalive := l.keepalive.map Timer.again }

/-- A complete frame is checked (R173, R174). -/
def LinkPort.checkFrame (f : RxFrame) (l : LinkPort) : LinkPort :=
  if f.good then
    match requestOf f.body with
    | some r => l.alive.joinIntake r
    | none => l.alive.countFormat
  else l.countCrc

/-- The oldest complete frame is checked. -/
def LinkPort.frameReceived (l : LinkPort) : LinkPort :=
  match l.completed with
  | [] => l
  | f :: rest => { l with completed := rest }.checkFrame f

/-- A complete frame is checked and handed on. -/
def execFrameReceived (s : State) : Host.Outcome State Fault Refusal := .next (s.setLink s.link.frameReceived)

end Sys2Proof.Machine
end

