-- ==== Sys2Proof/Machine/Transmitter.lean ====
section
/-! DEFINITION. The transmitter (C10 section 10.3): the beginnings and the end of frames. -/

namespace Sys2Proof.Machine

/-- How far a RESTART has come when a reply frame begins: its reply is the last that waits, since nothing is executed
behind it (R191). -/
def RestartPhase.replyBegins (left : List Reply) : RestartPhase → RestartPhase
  | .none => .none
  | .replyWaiting => if left = [] then .replySending else .replyWaiting
  | .replySending => .replySending

/-- The beginning of a reply frame, when the transmitter is free and a reply waits (R180, R181). -/
def LinkPort.beginReply (l : LinkPort) : LinkPort :=
  match l.transmitter, l.replies with
  | none, r :: rest =>
    { l with
      replies := rest
      transmitter := some (TxFrame.of l.rate r.frameBody)
      restart := l.restart.replyBegins rest }
  | _, _ => l

/-- A reply frame begins. -/
def execReplyFrameStart (s : State) : Host.Outcome State Fault Refusal := .next (s.setLink s.link.beginReply)

/-- The notice whose frame begins now: the transmitter is free, no reply waits, and the Notice Queue presents it in an
OPEN session (R161, R180). -/
def State.noticeToSend (s : State) : Option Notice :=
  if s.link.transmitter = none ∧ s.link.replies = [] ∧ s.link.session = .opened then s.notices.presented else none

/-- A notice frame begins: the notice becomes SENT (R161, R181). -/
def execNoticeFrameStart (s : State) : Host.Outcome State Fault Refusal :=
  .next (match s.noticeToSend with
    | none => s
    | some n =>
      (s.setLink { s.link with transmitter := some (TxFrame.of s.link.rate n.frameBody) }).setNotices
        { s.notices with entries := sendOldest s.notices.entries })

/-- The last stop bit of a frame has left TXD: the transmitter is free (R181); at the end of the RESTART reply the part
is reset, with the straps as they stand then (R191, R170). -/
def State.frameEnds (straps : Straps) (s : State) : State :=
  match s.link.restart with
  | .replySending => s.resetTo .request straps false
  | .none | .replyWaiting => s.setLink { s.link with transmitter := none }

/-- A frame ends. -/
def execFrameEnd (moment : Moment) (s : State) : Host.Outcome State Fault Refusal :=
  .next (s.expire (s.link.transmitter.map TxFrame.timer) moment.late (State.frameEnds moment.straps))

end Sys2Proof.Machine
end

