-- ==== Sys2Proof/Machine/PinEvents.lean ====
section
/-! DEFINITION. What the input pins of an axis bring (C01): edges of A and B, index marks, SENSE edges, the pairs. -/

namespace Sys2Proof.Machine

/-- A quadrature edge (R6, R8, R14). -/
def execCountEdge (a : AxisId) (levels : EncoderLevels) (order : List Block) (s : State) :
    Host.Outcome State Fault Refusal :=
  .next (s.countEdge a levels order)

/-- An edge that falls together with an index mark: its levels, if there is one. -/
def State.sameInstantEdge (s : State) (a : AxisId) (edge : Option EncoderLevels) (order : List Block) : State :=
  match edge with
  | none => s
  | some levels => s.countEdge a levels order

/-- An index mark (R7): the raw count is that after an edge of the same instant, the direction is the one held when the
mark is taken (R25; notes/assumptions/24.md). -/
def execIndexMark (a : AxisId) (edge : Option EncoderLevels) (order : List Block) (s : State) :
    Host.Outcome State Fault Refusal :=
  .next (((s.sameInstantEdge a edge order).indexCheck a).homingMark a (s.axis a).counting.lastDir order)

/-- A HOME whose acceptance an edge of SENSE meets (R151): where the order names the Link Port before the Capture Log, the
oldest request is executed, when it is a HOME, with the new level as the present SENSE state, ahead of the Capture Log
(notes/assumptions/15.md). -/
def State.homeAtEdge (s : State) (order : List Block) : State :=
  if Block.before .linkPort .captureLog order then s.execute .home homeRule else s

/-- The filtered SENSE level of an axis changes (R11): homing and the Capture Log take the edge, and the Window Monitor a
gain of reference it makes, in the order given (R31, R151, R153). -/
def State.senseChange (s : State) (a : AxisId) (high : Bool) (order : List Block) : State :=
  let t := s.modifyAxis a (Axis.senseLevel high)
  let active := (t.axis a).senseActive
  match (t.axis a).motion with
  | .homing h => t.homingSense a h active order
  | .idle | .held | .waiting | .moving _ | .jogging _ | .faulted => (t.homeAtEdge order).logSense a active

/-- A SENSE edge; a level that is the present one is no edge (R11). -/
def execSenseEdge (a : AxisId) (high : Bool) (order : List Block) (s : State) : Host.Outcome State Fault Refusal :=
  .next (if (s.axis a).pins.sense = high then s else s.senseChange a high order)

/-- The pairs of an encoder change (R12): the 1 ms timer starts when a pair becomes mismatched while none was, and the
timer and the condition end when all are complementary, so that it may raise LINE anew. -/
def Axis.pairsChange (m : PairMismatch) (x : Axis) : Axis :=
  { x with
    pins := { x.pins with mismatch := m }
    counting :=
      if PairMismatch.any m = false then { x.counting with lineFault := false, lineRaised := false, lineTimer := none }
      else if PairMismatch.any x.pins.mismatch = false then { x.counting with lineTimer := some (Timer.start Config.lineTime) }
      else x.counting }

/-- A pair becomes mismatched or complementary. -/
def execLinePairChange (a : AxisId) (m : PairMismatch) (s : State) : Host.Outcome State Fault Refusal :=
  .next (s.modifyAxis a (Axis.pairsChange m))

end Sys2Proof.Machine
end

