-- ==== Sys2Proof/Machine/TimerEvents.lean ====
section
/-! DEFINITION. The expiries of the timers of an axis (R12, R15, R32, R91, R93, R98, R112, R118). -/

namespace Sys2Proof.Machine

/-- The 1 ms of the line check has passed: the condition arises, and raises LINE with LINE-CHECK 1 (R12). -/
def State.lineConditionArises (s : State) (a : AxisId) : State :=
  let t := s.modifyAxis a (fun x => { x with counting := { x.counting with lineFault := true, lineTimer := none } })
  if (s.axis a).config.lineCheck then t.raiseLine a else t

/-- The line timer expires. -/
def execLineTimerExpiry (a : AxisId) (late : Nat) (s : State) : Host.Outcome State Fault Refusal :=
  .next (s.expire (s.axis a).counting.lineTimer late (fun t => t.lineConditionArises a))

/-- STALL (R15): lines off, the record with its FAULT notice (R16), then as for a fault claim (R17). -/
def Axis.stalls (a : AxisId) (now : Time) (x : Axis) : Taken :=
  let r := { x.turnOff now with stall := none }.recordFault a now .stall
  let e := r.1.takeFault a now .stall
  (e.1, r.2 ++ e.2)

/-- The stall timer expires. -/
def execStallTimerExpiry (a : AxisId) (late : Nat) (s : State) : Host.Outcome State Fault Refusal :=
  .next (s.expire (s.axis a).stall late (fun t => t.take a (Axis.stalls a t.timebase)))

/-- The homing limit timer, which runs while the axis is HOMING (table 2-2). -/
def Motion.homingLimit : Motion → Option Timer
  | .homing h => some h.limit
  | _ => none

/-- The homing limit expires: TIMEOUT (R32). -/
def execHomingLimitExpiry (a : AxisId) (late : Nat) (s : State) : Host.Outcome State Fault Refusal :=
  .next (s.expire (s.axis a).motion.homingLimit late (fun t => t.take a (Axis.failHoming a t.timebase .timeout)))

/-- An act on the active order of an axis. -/
def Axis.onOrder (f : ActiveOrder → Axis → Taken) (x : Axis) : Taken :=
  match x.motion with
  | .moving o => f o x
  | .idle | .held | .waiting | .homing _ | .jogging _ | .faulted => (x, [])

/-- The settle timer, which runs in SETTLE. -/
def Motion.settleTimer : Motion → Option Timer
  | .moving o =>
    match o.substate with
    | .settle t => some t
    | _ => none
  | _ => none

/-- The settle timer expires: the order ARRIVES (R91, R70). -/
def execSettleTimerExpiry (a : AxisId) (late : Nat) (s : State) : Host.Outcome State Fault Refusal :=
  .next (s.expire (s.axis a).motion.settleTimer late
    (fun t => t.take a (Axis.onOrder (fun o x => x.endOrder a t.timebase o .none))))

/-- The rest timer, which runs in COAST. -/
def Motion.restTimer : Motion → Option Timer
  | .moving o =>
    match o.substate with
    | .coast t => some t
    | _ => none
  | _ => none

/-- The rest timer expires: the judgement at rest (R93 to R95). -/
def execRestTimerExpiry (a : AxisId) (late : Nat) (s : State) : Host.Outcome State Fault Refusal :=
  .next (s.expire (s.axis a).motion.restTimer late
    (fun t => t.take a (Axis.onOrder (fun o x => x.judgeRest a t.timebase (t.monitor.limitAgainst a) o))))

/-- The move limit timer of the active order. -/
def Motion.moveLimit : Motion → Option Timer
  | .moving o => o.moveLimit
  | _ => none

/-- The move limit expires: TIMEOUT (R98). -/
def execMoveLimitExpiry (a : AxisId) (late : Nat) (s : State) : Host.Outcome State Fault Refusal :=
  .next (s.expire (s.axis a).motion.moveLimit late
    (fun t => t.take a (Axis.onOrder (fun o x => x.endOrder a t.timebase o .timeout))))

/-- The lockout timer, while the lockout is in force. -/
def Axis.lockoutTimer (x : Axis) : Option Timer := x.lockout.bind RunOff.timer

/-- The lockout timer expires (R112). -/
def execLockoutTimerExpiry (a : AxisId) (late : Nat) (s : State) : Host.Outcome State Fault Refusal :=
  .next (s.expire (s.axis a).lockoutTimer late
    (fun t => t.take a (Axis.lockoutExpired a t.timebase (t.monitor.limitAgainst a))))

/-- The deadman timer, which runs while the axis is JOGGING. -/
def Motion.deadman : Motion → Option Timer
  | .jogging j => some j.deadman
  | _ => none

/-- The deadman timer expires: the jog ends EXPIRED (R118). -/
def execDeadmanExpiry (a : AxisId) (late : Nat) (s : State) : Host.Outcome State Fault Refusal :=
  .next (s.expire (s.axis a).motion.deadman late (fun t => t.take a (Axis.endJog a t.timebase .expired)))

end Sys2Proof.Machine
end

