-- ==== Sys2Proof/Machine/ControllerEvents.lean ====
section
/-! DEFINITION. What an Axis Controller takes that was sent to it: the start of the head order (R62) and the claims of
the Window Monitor (R130, R133, R134) and of its Counting Unit (R17). -/

namespace Sys2Proof.Machine

/-- A start of the head order (R62, R63). -/
def execOrderStart (a : AxisId) (s : State) : Host.Outcome State Fault Refusal :=
  .next (s.startHead a)

/-- A stop claim of the Window Monitor (R133, R101, R33, R121). -/
def Axis.takeStop (a : AxisId) (now : Time) (x : Axis) : Taken :=
  match x.motion with
  | .moving o => x.endOrder a now o .guarded
  | .homing _ => x.failHoming a now .guarded
  | .jogging _ | .idle | .held | .waiting | .faulted => (x, [])

/-- A limit claim (R130, R102, R120): an order with a RUN line on in the forbidden direction and a jog in it end
LIMITED. -/
def Axis.takeLimit (a : AxisId) (now : Time) (d : Dir) (x : Axis) : Taken :=
  match x.motion with
  | .moving o => if x.lines.dir = some d then x.endOrder a now o .limited else (x, [])
  | .jogging j => if j.dir = d then x.endJog a now .limited else (x, [])
  | .homing _ | .idle | .held | .waiting | .faulted => (x, [])

/-- A guard release (R134): a WAITING axis becomes IDLE, and its start is due. -/
def Axis.takeRelease (x : Axis) : Taken :=
  (if x.motion = .waiting then { x with motion := .idle } else x, [])

/-- The oldest claim of the Window Monitor is gone from those in flight. -/
def Axis.popClaim (x : Axis) : Axis := { x with claims := x.claims.tail }

/-- The oldest claim of the Window Monitor in flight to an axis is taken, when it is a stop claim (R133;
notes/assumptions/4.md). -/
def Axis.stopClaim (a : AxisId) (now : Time) (x : Axis) : Taken :=
  match x.claims with
  | .stop :: _ => x.popClaim.takeStop a now
  | _ => (x, [])

/-- The same, when it is a limit claim. -/
def Axis.limitClaim (a : AxisId) (now : Time) (x : Axis) : Taken :=
  match x.claims with
  | .limit d :: _ => x.popClaim.takeLimit a now d
  | _ => (x, [])

/-- The same, when it is a guard release. -/
def Axis.guardRelease (x : Axis) : Taken :=
  match x.claims with
  | .release :: _ => x.popClaim.takeRelease
  | _ => (x, [])

/-- The oldest fault claim of the Counting Unit in flight is taken (R17). -/
def Axis.faultClaim (a : AxisId) (now : Time) (x : Axis) : Taken :=
  match x.faultClaims with
  | [] => (x, [])
  | k :: rest => { x with faultClaims := rest }.takeFault a now k

/-- A reference gained between a counting fault and the taking of its claim is dropped inside the claim (R10, R34;
notes/assumptions/27.md). -/
def State.dropGained (s : State) (a : AxisId) : State :=
  match (s.axis a).faultClaims with
  | .line :: _ => s.loseReference a
  | .slip :: _ => s.loseReference a
  | .overrange :: _ => s.loseReference a
  | .stall :: _ => s
  | [] => s

/-- A stop claim is taken. -/
def execStopClaim (a : AxisId) (s : State) : Host.Outcome State Fault Refusal :=
  .next (s.take a (Axis.stopClaim a s.timebase))

/-- A limit claim is taken. -/
def execLimitClaim (a : AxisId) (s : State) : Host.Outcome State Fault Refusal :=
  .next (s.take a (Axis.limitClaim a s.timebase))

/-- A guard release is taken. -/
def execGuardRelease (a : AxisId) (s : State) : Host.Outcome State Fault Refusal :=
  .next (s.take a Axis.guardRelease)

/-- A fault claim is taken (R17). One of SLIP or OVERRANGE that was sent before HOME was accepted fails the run with its
kind by the table of R17, where R33 names LINE and STALL alone: notes/assumptions/30.md. -/
def execFaultClaim (a : AxisId) (s : State) : Host.Outcome State Fault Refusal :=
  .next ((s.dropGained a).take a (Axis.faultClaim a s.timebase))

end Sys2Proof.Machine
end

