-- ==== Sys2Proof/Machine/Dispatch.lean ====
section
/-! DEFINITION. One arm per command: the direct call of its meaning. -/

namespace Sys2Proof.Machine

/-- The effect of a command on everything but the waiting commands. -/
def exec (i : Instr) (s : State) : Host.Outcome State Fault Refusal :=
  match i with
  | .openSession => Sys2Proof.Machine.execOpenSession s
  | .closeSession => Sys2Proof.Machine.execCloseSession s
  | .ping => Sys2Proof.Machine.execPing s
  | .identify => Sys2Proof.Machine.execIdentify s
  | .linkStatus => Sys2Proof.Machine.execLinkStatus s
  | .restart => Sys2Proof.Machine.execRestart s
  | .setAxis => Sys2Proof.Machine.execSetAxis s
  | .getAxis => Sys2Proof.Machine.execGetAxis s
  | .axisStatus => Sys2Proof.Machine.execAxisStatus s
  | .clearFault => Sys2Proof.Machine.execClearFault s
  | .home => Sys2Proof.Machine.execHome s
  | .teach => Sys2Proof.Machine.execTeach s
  | .shift => Sys2Proof.Machine.execShift s
  | .putStation => Sys2Proof.Machine.execPutStation s
  | .dropStation => Sys2Proof.Machine.execDropStation s
  | .getStation => Sys2Proof.Machine.execGetStation s
  | .listStations => Sys2Proof.Machine.execListStations s
  | .putProfile => Sys2Proof.Machine.execPutProfile s
  | .getProfile => Sys2Proof.Machine.execGetProfile s
  | .dropProfile => Sys2Proof.Machine.execDropProfile s
  | .enqueue => Sys2Proof.Machine.execEnqueue s
  | .cancel => Sys2Proof.Machine.execCancel s
  | .hold => Sys2Proof.Machine.execHold s
  | .release => Sys2Proof.Machine.execRelease s
  | .stop => Sys2Proof.Machine.execStop s
  | .listOrders => Sys2Proof.Machine.execListOrders s
  | .jog => Sys2Proof.Machine.execJog s
  | .putWindow => Sys2Proof.Machine.execPutWindow s
  | .dropWindow => Sys2Proof.Machine.execDropWindow s
  | .getWindow => Sys2Proof.Machine.execGetWindow s
  | .putGuard => Sys2Proof.Machine.execPutGuard s
  | .dropGuard => Sys2Proof.Machine.execDropGuard s
  | .getGuard => Sys2Proof.Machine.execGetGuard s
  | .setOutputs => Sys2Proof.Machine.execSetOutputs s
  | .setCapture => Sys2Proof.Machine.execSetCapture s
  | .readCaptures => Sys2Proof.Machine.execReadCaptures s
  | .ackNotices => Sys2Proof.Machine.execAckNotices s
  | .resendNotices => Sys2Proof.Machine.execResendNotices s
  | .retryFromCache => Sys2Proof.Machine.execRetryFromCache s
  | .frameReceived => Sys2Proof.Machine.execFrameReceived s
  | .frameGapExpiry late => Sys2Proof.Machine.execFrameGapExpiry late s
  | .replyFrameStart => Sys2Proof.Machine.execReplyFrameStart s
  | .noticeFrameStart => Sys2Proof.Machine.execNoticeFrameStart s
  | .frameEnd moment => Sys2Proof.Machine.execFrameEnd moment s
  | .keepaliveExpiry order moment => Sys2Proof.Machine.execKeepaliveExpiry order moment s
  | .reset pins => Sys2Proof.Machine.execReset pins s
  | .countEdge a levels order => Sys2Proof.Machine.execCountEdge a levels order s
  | .indexMark a edge order => Sys2Proof.Machine.execIndexMark a edge order s
  | .senseEdge a high order => Sys2Proof.Machine.execSenseEdge a high order s
  | .linePairChange a m => Sys2Proof.Machine.execLinePairChange a m s
  | .lineTimerExpiry a late => Sys2Proof.Machine.execLineTimerExpiry a late s
  | .stallTimerExpiry a late => Sys2Proof.Machine.execStallTimerExpiry a late s
  | .homingLimitExpiry a late => Sys2Proof.Machine.execHomingLimitExpiry a late s
  | .settleTimerExpiry a late => Sys2Proof.Machine.execSettleTimerExpiry a late s
  | .restTimerExpiry a late => Sys2Proof.Machine.execRestTimerExpiry a late s
  | .moveLimitExpiry a late => Sys2Proof.Machine.execMoveLimitExpiry a late s
  | .lockoutTimerExpiry a late => Sys2Proof.Machine.execLockoutTimerExpiry a late s
  | .deadmanExpiry a late => Sys2Proof.Machine.execDeadmanExpiry a late s
  | .orderStart a => Sys2Proof.Machine.execOrderStart a s
  | .stopClaim a => Sys2Proof.Machine.execStopClaim a s
  | .limitClaim a => Sys2Proof.Machine.execLimitClaim a s
  | .guardRelease a => Sys2Proof.Machine.execGuardRelease a s
  | .faultClaim a => Sys2Proof.Machine.execFaultClaim a s
  | .byteReceived e => Sys2Proof.Machine.execByteReceived e s
  | .unknownRequestCode => Sys2Proof.Machine.execUnknownRequestCode s

end Sys2Proof.Machine
end

