-- ==== Sys2Proof/Machine/Idle.lean ====
section
/-! DEFINITION. What the SA-410 does when no command waits (notes/assumptions/3.md): it takes one of its own events that
is due, or lets one millisecond pass. -/

namespace Sys2Proof.Machine

/-- The command that executes a request. -/
def ReqCode.command : ReqCode → Instr
  | .openSession => .openSession
  | .closeSession => .closeSession
  | .ping => .ping
  | .identify => .identify
  | .linkStatus => .linkStatus
  | .restart => .restart
  | .setAxis => .setAxis
  | .getAxis => .getAxis
  | .axisStatus => .axisStatus
  | .clearFault => .clearFault
  | .home => .home
  | .teach => .teach
  | .shift => .shift
  | .putStation => .putStation
  | .dropStation => .dropStation
  | .getStation => .getStation
  | .listStations => .listStations
  | .putProfile => .putProfile
  | .getProfile => .getProfile
  | .dropProfile => .dropProfile
  | .enqueue => .enqueue
  | .cancel => .cancel
  | .hold => .hold
  | .release => .release
  | .stop => .stop
  | .listOrders => .listOrders
  | .jog => .jog
  | .putWindow => .putWindow
  | .dropWindow => .dropWindow
  | .getWindow => .getWindow
  | .putGuard => .putGuard
  | .dropGuard => .dropGuard
  | .getGuard => .getGuard
  | .setOutputs => .setOutputs
  | .setCapture => .setCapture
  | .readCaptures => .readCaptures
  | .ackNotices => .ackNotices
  | .resendNotices => .resendNotices

/-- The command that takes the oldest request of the intake, when the Link Port executes (R177, R183). -/
def State.intakeCommand (s : State) : Option Instr :=
  match s.link.intake with
  | [] => none
  | r :: _ =>
    if s.link.executes = false then none
    else if s.link.fromCache r then some .retryFromCache
    else
      match ReqCode.ofByte r.code with
      | none => some .unknownRequestCode
      | some c => some c.command

/-- A command, when its timer is due. -/
def whenDue (t : Option Timer) (i : Instr) : Option Instr :=
  match t with
  | none => none
  | some t => if t.due then some i else none

/-- The claim of the Window Monitor that an Axis Controller takes next. -/
def Axis.claimCommand (a : AxisId) (x : Axis) : Option Instr :=
  match x.claims with
  | [] => none
  | .stop :: _ => some (.stopClaim a)
  | .limit _ :: _ => some (.limitClaim a)
  | .release :: _ => some (.guardRelease a)

/-- The event of an axis that is due, if any: claims in flight, a start, an expiry. -/
def Axis.ownCommand (a : AxisId) (x : Axis) : Option Instr :=
  (if x.faultClaims.isEmpty then none else some (.faultClaim a)) <|>
  x.claimCommand a <|>
  (if x.startDue then some (.orderStart a) else none) <|>
  whenDue x.counting.lineTimer (.lineTimerExpiry a 0) <|>
  whenDue x.stall (.stallTimerExpiry a 0) <|>
  whenDue x.motion.homingLimit (.homingLimitExpiry a 0) <|>
  whenDue x.motion.settleTimer (.settleTimerExpiry a 0) <|>
  whenDue x.motion.restTimer (.restTimerExpiry a 0) <|>
  whenDue x.motion.moveLimit (.moveLimitExpiry a 0) <|>
  whenDue x.lockoutTimer (.lockoutTimerExpiry a 0) <|>
  whenDue x.motion.deadman (.deadmanExpiry a 0)

/-- The event of the Link Port that is due, if any. A reset that it takes of itself reads the straps as the last reset read
them, unmoved since: the model's choice (R170; notes/assumptions/8.md). -/
def State.linkCommand (s : State) : Option Instr :=
  (if s.link.completed.isEmpty then none else some .frameReceived) <|>
  s.intakeCommand <|>
  whenDue (s.link.transmitter.map TxFrame.timer) (.frameEnd ⟨0, s.link.straps⟩) <|>
  (if s.link.transmitter.isNone && !s.link.replies.isEmpty then some .replyFrameStart else none) <|>
  (if s.noticeToSend.isSome then some .noticeFrameStart else none) <|>
  whenDue s.link.framer.gap (.frameGapExpiry 0) <|>
  whenDue s.link.keepalive (.keepaliveExpiry [] ⟨0, s.link.straps⟩)

/-- The event of its own that the SA-410 takes next, if one is due. -/
def State.ownCommand (s : State) : Option Instr :=
  (s.axis .axis0).ownCommand .axis0 <|> (s.axis .axis1).ownCommand .axis1 <|>
  (s.axis .axis2).ownCommand .axis2 <|> (s.axis .axis3).ownCommand .axis3 <|> s.linkCommand

end Sys2Proof.Machine
end

