-- ==== Sys2Proof/Machine/Step.lean ====
section
/-! DEFINITION. One step: the command at the front of those waiting; with none waiting, an event of the part's own, or one
millisecond (notes/assumptions/3.md). -/

namespace Sys2Proof.Machine

/-- The state with the given commands waiting. -/
def State.withPending (s : State) (cs : List Instr) : State := { s with pending := cs }

/-- One step. -/
def step (s : State) : Host.Outcome State Fault Refusal :=
  match s.pending with
  | c :: rest => exec c (s.withPending rest)
  | [] =>
    match s.ownCommand with
    | some c => exec c s
    | none => .next (s.advance 1000)

/-- The state with the command that a word spells in front of those waiting; no word spells one. -/
def State.withFetchWord (s : State) (nbits w : Nat) : State :=
  match decodeTableWord nbits w with
  | none => s
  | some c => { s with pending := c :: s.pending }

end Sys2Proof.Machine
end

