-- ==== Sys2Proof/Safety.lean ====
section
/-! DEFINITION. What counts as a safe run, and the well-formedness of each part of the state that every step keeps: the
Notice Queue (R157), the Link Port (R176, R177, R182), the lines of an axis (R1, R24, R109, R111, table 5-1, table 6-2),
windows and guards (R126, R131, R132, R146), the closed session (R184), the capacities and the numbers of the stores
(R41, R48, R57, R124, R131, R152) and the timers (R199). -/

namespace Sys2Proof.Machine

/-- A run from a state never stops. -/
def State.Safe (s : State) : Prop := ∀ n, ∃ t, Host.Core.run Sys2Proof.core n s = .next t

/-- A property that every step keeps. -/
def KeptByStep (p : State → Prop) : Prop := ∀ s t, p s → step s = .next t → p t

/-- The Notice Queue as R157 and R161 describe it: at most 31 ordinary notices and one marker, at most 8 SENT, the SENT
ones the oldest, the numbers one unbroken run that ends before the next number. -/
structure NoticeQueue.Ok (q : NoticeQueue) : Prop where
  ordinary : q.ordinary ≤ 31
  markers : q.entries.countP (·.isMarker) ≤ 1
  sent : q.sentCount ≤ 8
  oldestSent : q.entries.Pairwise (fun e f => f.sent = true → e.sent = true)
  numbered : q.entries.IsChain (fun e f => f.seq = nextNumber e.seq)
  lastNumber : ∀ e ∈ q.entries.getLast?, q.nextSeq = nextNumber e.seq
  numberRange : ∀ e ∈ q.entries, 1 ≤ e.seq ∧ e.seq ≤ 65535
  nextRange : 1 ≤ q.nextSeq ∧ q.nextSeq ≤ 65535

/-- The framer in BODY: LEN is in its range, and the frame is not complete (R171). -/
def Framer.Ok : Framer → Prop
  | .hunt => True
  | .length _ => True
  | .body len taken _ => 3 ≤ len.toNat ∧ len.toNat ≤ 200 ∧ taken.length < len.toNat + 2

/-- The Link Port within its bounds (R171, R175 to R177, R182, R186, R191, R170), and empty while RESETN is low (R192). -/
structure LinkPort.Ok (l : LinkPort) : Prop where
  framer : l.framer.Ok
  intake : l.intake.length ≤ 4
  replies : l.replies.length ≤ 4
  cache : l.cache.length ≤ 8
  tags : (l.cache.map (·.tag)).Nodup
  counters : l.counters.crc ≤ 65535 ∧ l.counters.gap ≤ 65535 ∧ l.counters.format ≤ 65535 ∧ l.counters.dropped ≤ 65535
  closed : l.session = .closed → l.keepalive = none
  rate : l.rate = rateOf l.straps
  waiting : l.restart = .replyWaiting → l.replies ≠ []
  sending : l.restart = .replySending → l.transmitter ≠ none
  held : l.resetnLow = true → l.framer = .hunt ∧ l.completed = [] ∧ l.intake = [] ∧ l.replies = [] ∧
    l.transmitter = none ∧ l.session = .closed

/-- The line pattern that an approach substate calls for (table 5-1): whether a pattern is one of it. -/
def ActiveOrder.linesFit (o : ActiveOrder) (l : Lines) : Prop :=
  match o.substate with
  | .takeup => l.dir = some o.dir.opposite
  | .fast => l = .run o.dir true
  | .slow _ => l = .run o.dir false
  | .coast _ => l = .off
  | .settle _ => l = .off
  | .reversing _ => l = .off

/-- The line pattern that goes with a motion state (R109, R24, table 5-1, table 6-2). -/
def Motion.linesFit (m : Motion) (l : Lines) : Prop :=
  match m with
  | .idle | .held | .waiting | .faulted => l = .off
  | .moving o => o.linesFit l
  | .homing h => l = .off ∨ l = .run h.wanted.1 h.wanted.2
  | .jogging j => if j.pending then l = .off else l = .run j.dir (decide (j.speed = .high))

/-- The motion states of a WATCHED axis (R1). -/
def Motion.watchedState : Motion → Prop
  | .idle | .held | .homing _ | .faulted => True
  | .waiting | .moving _ | .jogging _ => False

/-- The lines of an axis: they fit its motion state; no RUN line is on against a lockout in force; the stall timer runs
only with a RUN line on; a WATCHED axis has its lines off, no orders, and a state of R1. -/
structure Axis.LinesOk (x : Axis) : Prop where
  fit : x.motion.linesFit x.lines
  permitted : ∀ d h, x.lines = .run d h → x.permits d = true
  stall : x.lines = .off → x.stall = none
  watched : x.driven = false → x.lines = .off ∧ x.queue = [] ∧ x.motion.watchedState

/-- The lines of every axis. -/
def State.LinesOk (s : State) : Prop := ∀ a, (s.axis a).LinesOk

/-- Windows and guards: each window has the occupancy of R126; each guard's members are DEFINED, and a TRIPPED guard has
no VACANT member (R131, R132); a window-owned output has host value off (R146). -/
structure State.WindowsOk (s : State) : Prop where
  tested : ∀ e ∈ s.monitor.windows, e.2.occupancy = e.2.test (s.axis e.2.axis)
  members : ∀ e ∈ s.monitor.guards, ∀ n ∈ e.2.members, (Table.find n s.monitor.windows).isSome = true
  tripped : ∀ e ∈ s.monitor.guards, e.2.state = .tripped → ∀ n ∈ e.2.members,
    occupancyAt s.monitor.windows n ≠ .vacant
  hosts : s.monitor.hostValues &&& s.monitor.owned = 0

/-- In a CLOSED session no axis is in motion (R184), and no queue is left that could start (R187, R188). -/
def State.ClosedQuiet (s : State) : Prop :=
  s.link.session = .closed → ∀ a, (s.axis a).motion.inMotion = false ∧
    ((s.axis a).motion = .idle ∨ (s.axis a).motion = .waiting → (s.axis a).queue = [])

/-- The capacities: move queues with distinct tags (R57), capture rings (R152), the Station Pool (R41), and the keyed
stores in their canonical form. -/
structure State.CapacitiesOk (s : State) : Prop where
  queues : ∀ a, (s.axis a).moveQueue.length ≤ 8
  tags : ∀ a, ((s.axis a).moveQueue.map (·.tag)).Nodup
  rings : ∀ a, (s.axis a).log.ring.length ≤ 8
  pool : s.tables.stations.length ≤ 384
  stores : Table.wf s.tables.stations ∧ Table.wf s.tables.profiles ∧ Table.wf s.monitor.windows ∧
    Table.wf s.monitor.guards

/-- The keyed stores hold only the numbers the part has: stations 1 to 999 of axes 0 to 3, under the key of `TableStore`
(R41, table 3-1), profile entries 0 to 15 (R48), windows 1 to 48 (R124), guards 1 to 12 (R131). -/
structure State.KeysOk (s : State) : Prop where
  stations : ∀ e ∈ s.tables.stations, 1 ≤ e.1 % 1000 ∧ e.1 / 1000 ≤ 3
  profiles : ∀ e ∈ s.tables.profiles, e.1 ≤ 15
  windows : ∀ e ∈ s.monitor.windows, 1 ≤ e.1 ∧ e.1 ≤ 48
  guards : ∀ e ∈ s.monitor.guards, 1 ≤ e.1 ∧ e.1 ≤ 12

/-- No running timer has gone past its last moment: a timer of t ms expires before t + 1 ms after its start (R199). The
microseconds since the last step of the timebase are less than a millisecond. -/
def State.TimersOk (s : State) : Prop := s.micros < 1000 ∧ ∀ t ∈ s.timers, t.elapsed < 1000 * (t.duration + 1)

/-! ### Terms of the statements -/

/-- The invariants of windows and guards together: occupancies, members and states (`WindowsOk`), and slots that are held
once (`CapacitiesOk`). -/
def State.MonitorOk (s : State) : Prop := s.WindowsOk ∧ s.CapacitiesOk

/-- The Link Port takes a request of a kind now, and the general checks pass it with the given fields (R177, R178). -/
def Serves (s : State) (c : ReqCode) (r : Request) (fs : List Field) : Prop :=
  s.dueRequest (some c) = some r ∧ c.check s.link.session r.area = .passed fs

/-- The state with its oldest request gone from the intake and answered: the reply queued and cached (R177, R182). -/
def State.answered (s : State) (r : Request) (a : Answer) : State :=
  { s with
    link :=
      { s.link with
        intake := s.link.intake.tail
        replies := s.link.replies ++ [⟨r.tag, a⟩]
        cache := cacheWrite s.link.cache ⟨r.tag, a⟩ } }

/-- Two states of an axis that differ at most in the claims in flight to it. -/
def Axis.SameButClaims (x y : Axis) : Prop := y = { x with claims := y.claims }

/-- Two states of an axis that its Axis Controller may have changed: configuration, pins, Counting Unit, Capture Log and
claims in flight are the same. -/
structure Axis.Controlled (x y : Axis) : Prop where
  config : y.config = x.config
  pins : y.pins = x.pins
  counting : y.counting = x.counting
  claims : y.claims = x.claims
  faultClaims : y.faultClaims = x.faultClaims
  log : y.log = x.log

/-- The state with the windows of an axis UNKNOWN, as a loss of reference leaves them (R10, R126). -/
def State.windowsUnknown (s : State) (a : AxisId) : State :=
  { s with
    monitor :=
      { s.monitor with
        windows :=
          s.monitor.windows.map (fun e => if e.2.axis = a then (e.1, { e.2 with occupancy := .unknown }) else e) } }

/-- The state with a changed axis that is UNREFERENCED now; a loss of reference leaves its windows UNKNOWN (R10). -/
def State.lost (s : State) (a : AxisId) (x : Axis) : State :=
  if (s.axis a).counting.reference = .referenced then (s.setAxis a x).windowsUnknown a else s.setAxis a x

/-- A Counting Unit as a loss of reference leaves it; an UNREFERENCED one keeps its baseline (R10). -/
def CountingUnit.dropped (c : CountingUnit) : CountingUnit :=
  { c with reference := .unreferenced, baseline := if c.reference = .referenced then none else c.baseline }

/-- What a count event leaves of an axis (R6, R15, R90): the pins, the counted raw count and its direction, the stall timer
and, in COAST, the rest timer from their full time. -/
def Axis.counted (l : EncoderLevels) (d : Dir) (x : Axis) : Axis :=
  { x with
    pins := { x.pins with encoder := l }
    counting := { x.counting with raw := x.counting.raw + BitVec.ofInt 32 d.sign, lastDir := some d }
    stall := x.stall.map (fun t => ⟨t.duration, 0⟩)
    motion :=
      match x.motion with
      | .moving o =>
        match o.substate with
        | .coast _ => .moving { o with substate := .coast ⟨x.config.restTime, 0⟩ }
        | _ => x.motion
      | _ => x.motion }

/-- What a reset leaves (R192): every block in its reset state, on the pins, the straps and the cause given, the waiting
commands kept. The lockout record alone is left to the rule that uses this. -/
structure ResetOf (cause : Cause) (straps : Straps) (held : Bool) (s t : State) : Prop where
  axes : ∀ a, t.axis a =
    { State.reset.axis a with
      pins := (s.axis a).pins
      lockout := (t.axis a).lockout
      counting :=
        { (State.reset.axis a).counting with
          lineTimer := if (s.axis a).pins.mismatch = ⟨false, false, false⟩ then none else some ⟨1, 0⟩ } }
  tables : t.tables = ⟨[], []⟩
  monitor : t.monitor = ⟨[], [], 0⟩
  notices : t.notices = ⟨[⟨1, 0, .startup cause, false⟩], 2⟩
  link : t.link = { State.reset.link with straps := straps, rate := rateOf straps, resetnLow := held }
  timebase : t.timebase = 0
  micros : t.micros = 0
  pending : t.pending = s.pending

end Sys2Proof.Machine
end

