-- ==== Sys2Proof/Certificates/Slice0/Obligations.lean ====
section
/-! DEFINITION. The statements about the model, one definition each, listed in OBLIGATIONS.json. A request is taken with
`Serves s c r fs`: the Link Port takes the request r of kind c now, and the general checks pass it with the fields fs. A
timer's expiry is taken at `s.runTo t late`, the state in which the timer t expires, when no other running timer has to
expire before that, `s.mayRun (t.wait late)`; `late` is how many microseconds behind its duration it expires (R199;
notes/assumptions/2.md). -/

open Sys2Proof Sys2Proof.Machine

/-! ### Steps, answers, reset -/

/-- A step takes the command at the front of those waiting and runs it on the state with the rest of the queue. -/
def Obligations.StepRunsTheFrontCommand : Prop :=
  ∀ (c : Instr) (rest : List Instr) (s : State), s.pending = c :: rest → step s = exec c (s.withPending rest)

/-- With no command waiting, a step takes an event of the part's own that is due, or one millisecond passes: the model's
choice, notes/assumptions/3.md. -/
def Obligations.EmptyQueueTakesOwnEventOrTick : Prop :=
  ∀ s : State, s.pending = [] →
    (∀ c, s.ownCommand = some c → step s = exec c s) ∧ (s.ownCommand = none → step s = .next (s.advance 1000))

/-- No command stops the part: every command answers a next state in every state, and no run stops, from any state. No
command touches those that wait behind it, RESET included: the model's choice (notes/assumptions/21.md). One that is not
due answers the state as it is, the model's choice too (notes/assumptions/1.md): a request that is not the oldest to be
executed, a frame that is not there, a claim that was not sent, a start that is not due (the expiries:
TimeMovesOnlyTimers). -/
def Obligations.EveryCommandAnswersAndNoRunStops : Prop :=
  (∀ (c : Instr) (s : State), ∃ t, exec c s = .next t ∧ t.pending = s.pending) ∧
  (∀ s : State, s.Safe) ∧
  (∀ s : State,
    let idles (i : Instr) : Prop := exec i s = .next s
    (∀ c : ReqCode, s.dueRequest (some c) = none → idles c.command) ∧
    (s.dueRequest none = none → idles .unknownRequestCode) ∧
    ((∀ r ∈ s.link.intake.head?, r.retry = false ∨ (∀ p ∈ s.link.cache, p.tag ≠ r.tag) ∨ 4 ≤ s.link.replies.length ∨
      s.link.restart ≠ .none) → idles .retryFromCache) ∧
    (s.link.completed = [] → idles .frameReceived) ∧
    (s.link.transmitter ≠ none ∨ s.link.replies = [] → idles .replyFrameStart) ∧
    (s.link.transmitter ≠ none ∨ s.link.replies ≠ [] ∨ s.link.session = .closed ∨ 8 ≤ s.notices.sentCount ∨
      (∀ e ∈ s.notices.entries, e.sent = true) → idles .noticeFrameStart) ∧
    ∀ a, let x := s.axis a
      (x.motion ≠ .idle ∨ x.queue = [] → idles (.orderStart a)) ∧
      (x.claims.head? ≠ some .stop → idles (.stopClaim a)) ∧
      ((∀ d, x.claims.head? ≠ some (.limit d)) → idles (.limitClaim a)) ∧
      (x.claims.head? ≠ some .release → idles (.guardRelease a)) ∧
      (x.faultClaims = [] → idles (.faultClaim a)))

/-- Time that passes moves the timebase and every running timer, and nothing else of the part (R199): n microseconds, the
grain of the model (notes/assumptions/2.md). Time may run while every running timer of t ms, of all blocks, stays before
t + 1 ms after its start: `mayRun`. So a timer that has to expire before another is never left behind it. An expiry
whose timer does not run, or before which another has to come, leaves the state as it is: the model's choice,
notes/assumptions/1.md and 2.md. -/
def Obligations.TimeMovesOnlyTimers : Prop :=
  (∀ (s : State) (n : Nat),
    let on (t : Timer) : Timer := ⟨t.duration, t.elapsed + n⟩
    (s.advance n).timebase = s.timebase + BitVec.ofNat 32 ((s.micros + n) / 1000) ∧
    (s.advance n).micros = (s.micros + n) % 1000 ∧ (s.advance n).tables = s.tables ∧
    (s.advance n).monitor = s.monitor ∧ (s.advance n).notices = s.notices ∧ (s.advance n).pending = s.pending ∧
    (s.advance n).link =
      { s.link with
        framer :=
          match s.link.framer with
          | .hunt => .hunt
          | .length g => .length (on g)
          | .body len taken g => .body len taken (on g)
        keepalive := s.link.keepalive.map on
        transmitter := s.link.transmitter.map (fun f => ⟨f.bytes, on f.timer⟩) } ∧
    ∀ a, let x := s.axis a
      (s.advance n).axis a =
        { x with
          counting := { x.counting with lineTimer := x.counting.lineTimer.map on }
          stall := x.stall.map on
          lockout := x.lockout.map (fun r => { r with timer := r.timer.map on })
          motion :=
            match x.motion with
            | .moving o =>
              .moving { o with
                moveLimit := o.moveLimit.map on
                substate :=
                  match o.substate with
                  | .coast t => .coast (on t)
                  | .settle t => .settle (on t)
                  | _ => o.substate }
            | .homing h => .homing { h with limit := on h.limit }
            | .jogging j => .jogging { j with deadman := on j.deadman }
            | _ => x.motion }) ∧
  (∀ (s : State) (n : Nat), s.mayRun n = true ↔ n = 0 ∨ ∀ t ∈ s.timers, t.elapsed + n < 1000 * (t.duration + 1)) ∧
  (∀ (s : State) (t : Timer), t ∈ s.timers ↔
    s.link.framer = .length t ∨ (∃ len taken, s.link.framer = .body len taken t) ∨ s.link.keepalive = some t ∨
    (∃ f, s.link.transmitter = some f ∧ f.timer = t) ∨
    ∃ a, let x := s.axis a
      x.counting.lineTimer = some t ∨ x.stall = some t ∨ (∃ r, x.lockout = some r ∧ r.timer = some t) ∨
      (∃ o, x.motion = .moving o ∧ (o.moveLimit = some t ∨ o.substate = .coast t ∨ o.substate = .settle t)) ∨
      (∃ h, x.motion = .homing h ∧ h.limit = t) ∨ (∃ j, x.motion = .jogging j ∧ j.deadman = t)) ∧
  (∀ (s : State) (a : AxisId) (late : Nat) (order : List Block) (straps : Straps),
    let x := s.axis a
    let timers : List (Instr × Option Timer) :=
      [(.lineTimerExpiry a late, x.counting.lineTimer), (.stallTimerExpiry a late, x.stall),
        (.homingLimitExpiry a late, x.motion.homingLimit), (.settleTimerExpiry a late, x.motion.settleTimer),
        (.restTimerExpiry a late, x.motion.restTimer), (.moveLimitExpiry a late, x.motion.moveLimit),
        (.lockoutTimerExpiry a late, x.lockout.bind (·.timer)), (.deadmanExpiry a late, x.motion.deadman),
        (.frameGapExpiry late, s.link.framer.gap), (.frameEnd ⟨late, straps⟩, s.link.transmitter.map (·.timer)),
        (.keepaliveExpiry order ⟨late, straps⟩, s.link.keepalive)]
    ∀ e ∈ timers, (∀ t, e.2 = some t → s.mayRun (t.wait late) = false) → exec e.1 s = .next s)

/-- The machine after power-up: every axis WATCHED, IDLE, UNREFERENCED at raw count 0 with its lines off and its
stores empty; the tables, windows and guards UNDEFINED; STARTUP with cause POWER as the one notice; the session
CLOSED; the timebase 0. RESETN: every block takes its reset state, a RUN line that was on is the one thing remembered
(R111), a mismatched pair starts the 1 ms timer (R20), the straps set the rate, the cause is POWER. While RESETN is held,
and at its release, the RUN-off of its beginning is the one remembered: the model's choice, notes/assumptions/10.md. The
command queue is the outside's and stays: the model's choice, notes/assumptions/21.md. -/
def Obligations.ResetTakesTheResetState : Prop :=
  ((∀ a, let x := State.reset.axis a
    x.config = ⟨.watched, .linear, 16777215, .normal, .shortest, 0, 0, false, 0, 100, 200, .activeLow⟩ ∧
    x.motion = .idle ∧ x.queue = [] ∧ x.holdPending = false ∧ x.lines = .off ∧ x.lockout = none ∧ x.stall = none ∧
    x.claims = [] ∧ x.faultClaims = [] ∧ x.counting.raw = 0 ∧ x.counting.lastDir = none ∧
    x.counting.reference = .unreferenced ∧ x.counting.base = 0 ∧ x.counting.shift = 0 ∧ x.counting.baseline = none ∧
    x.counting.lineFault = false ∧ x.counting.lineRaised = false ∧ x.counting.fault = none ∧
    x.log = ⟨.off, [], 1⟩ ∧ x.position = none) ∧
  State.reset.tables = ⟨[], []⟩ ∧ State.reset.monitor = ⟨[], [], 0⟩ ∧
  State.reset.notices = ⟨[⟨1, 0, .startup .power, false⟩], 2⟩ ∧
  State.reset.link.session = .closed ∧ State.reset.link.keepalive = none ∧ State.reset.link.framer = .hunt ∧
  State.reset.link.completed = [] ∧ State.reset.link.intake = [] ∧ State.reset.link.replies = [] ∧
  State.reset.link.cache = [] ∧ State.reset.link.transmitter = none ∧ State.reset.link.counters = ⟨0, 0, 0, 0⟩ ∧
  State.reset.link.restart = .none ∧ State.reset.timebase = 0 ∧ State.reset.micros = 0) ∧
  (∀ (s : State) (st : Straps) (held : Bool), ∃ t, exec (.reset ⟨st, held⟩) s = .next t ∧
    ResetOf .power st held s t ∧
    (st = ⟨false, false⟩ → t.link.rate = 19200) ∧ (st = ⟨false, true⟩ → t.link.rate = 57600) ∧
    (st = ⟨true, false⟩ → t.link.rate = 115200) ∧ (st = ⟨true, true⟩ → t.link.rate = 460800) ∧
    ∀ a,
      (∀ d h, (s.axis a).lines = .run d h → (t.axis a).lockout = some ⟨d, 0, some ⟨200, 0⟩, 0⟩) ∧
      ((s.axis a).lines = .off → s.link.resetnLow = false → (t.axis a).lockout = none) ∧
      ((s.axis a).lines = .off → s.link.resetnLow = true →
        (t.axis a).lockout = (s.axis a).lockout.map (fun r => ⟨r.line, 0, some ⟨200, 0⟩, 0⟩)))

/-- Every reset, by RESETN, at the end of a RESTART reply or behind a link loss that discards it (R191), gives each
Counting Unit the configuration in the last column of table 1-1, whatever it was (R5). -/
def Obligations.ResetGivesTheResetConfiguration : Prop :=
  ∀ (s : State) (a : AxisId) (st : Straps),
    (∀ held, ∃ t, exec (.reset ⟨st, held⟩) s = .next t ∧
      (t.axis a).config = ⟨.watched, .linear, 16777215, .normal, .shortest, 0, 0, false, 0, 100, 200, .activeLow⟩) ∧
    (∀ f late, s.link.transmitter = some f → s.mayRun (f.timer.wait late) = true → s.link.restart = .replySending →
      ∃ t, exec (.frameEnd ⟨late, st⟩) s = .next t ∧
        (t.axis a).config = ⟨.watched, .linear, 16777215, .normal, .shortest, 0, 0, false, 0, 100, 200, .activeLow⟩) ∧
    (∀ k order late, s.link.keepalive = some k → s.mayRun (k.wait late) = true → s.link.session = .opened →
      s.link.restart = .replyWaiting →
      ∃ t, exec (.keepaliveExpiry order ⟨late, st⟩) s = .next t ∧
        (t.axis a).config = ⟨.watched, .linear, 16777215, .normal, .shortest, 0, 0, false, 0, 100, 200, .activeLow⟩)

/-- The invariants of this file hold right after power-up. -/
def Obligations.InvariantsHoldAtReset : Prop :=
  State.reset.notices.Ok ∧ State.reset.link.Ok ∧ State.reset.LinesOk ∧ State.reset.WindowsOk ∧
    State.reset.ClosedQuiet ∧ State.reset.CapacitiesOk ∧ State.reset.KeysOk ∧ State.reset.TimersOk

/-! ### Invariants that every step keeps -/

/-- The Notice Queue keeps its bounds, its run of numbers and its SENT notices as the oldest (R157, R161). -/
def Obligations.StepsKeepTheNoticeQueue : Prop := KeptByStep (fun s => s.notices.Ok)

/-- The Link Port keeps its bounds and its distinct tags, and holds nothing while RESETN is low (R171, R175 to R177, R182,
R186, R191, R192). -/
def Obligations.StepsKeepTheLinkPort : Prop := KeptByStep (fun s => s.link.Ok)

/-- Every axis keeps the lines of its motion state and substate, off on a WATCHED, standing or FAULTED axis, and never
against a lockout in force (R1, R24, R109, R111). -/
def Obligations.StepsKeepTheLines : Prop := KeptByStep State.LinesOk

/-- Every window keeps the occupancy of R126, every guard DEFINED members, no TRIPPED guard a VACANT one, and no
window-owned output a host value (R126, R131, R132, R146). -/
def Obligations.StepsKeepWindowsAndGuards : Prop := KeptByStep State.WindowsOk

/-- While the session is CLOSED no axis is in motion, and no queue of an IDLE or WAITING axis is left to start (R184,
R187, R188). -/
def Obligations.StepsKeepTheClosedSessionQuiet : Prop := KeptByStep State.ClosedQuiet

/-- Queues, rings and the Station Pool stay within their capacities, tags stay distinct, keyed stores stay in their one
form (R41, R57, R152), and their keys stay the numbers the part has: stations 1 to 999 of axes 0 to 3, profile entries 0
to 15, windows 1 to 48, guards 1 to 12 (table 3-1, R48, R124, R131). -/
def Obligations.StepsKeepTheCapacities : Prop := KeptByStep State.CapacitiesOk ∧ KeptByStep State.KeysOk

/-- No running timer goes past its last moment: every timer of t ms has expired, been stopped or been started again before
t + 1 ms after its start (R199), at the grain of one microsecond of notes/assumptions/2.md. -/
def Obligations.StepsKeepTheTimers : Prop := KeptByStep State.TimersOk

/-! ### The Link Port: reception, checks, replies -/

/-- A byte moves the framer as R171 says: SYNC begins a frame, LEN from 3 to 200 begins its body, another LEN is
counted in FORMAT, the byte behind the second CRC byte is never taken, and each byte of a frame starts the gap timer
of 5 ms. A damaged byte or a break inside a frame abandons it and counts in FORMAT; in HUNT it is disregarded (R170).
That a break acts as one damaged byte is the model's reading, notes/assumptions/25.md. While RESETN is low nothing is
taken (R192). The gap timer's expiry abandons the frame and counts in GAP (R172). -/
def Obligations.ReceiverFollowsTheFramer : Prop :=
  (∀ (s : State) (e : LineEvent), s.link.resetnLow = true → exec (.byteReceived e) s = .next s) ∧
  (∀ (s : State) (b : Byte), s.link.resetnLow = false →
    (s.link.framer = .hunt → b = 0x5A →
      exec (.byteReceived (.byte b)) s = .next { s with link := { s.link with framer := .length ⟨5, 0⟩ } }) ∧
    (s.link.framer = .hunt → b ≠ 0x5A → exec (.byteReceived (.byte b)) s = .next s) ∧
    (∀ g, s.link.framer = .length g → 3 ≤ b.toNat → b.toNat ≤ 200 →
      exec (.byteReceived (.byte b)) s = .next { s with link := { s.link with framer := .body b [] ⟨5, 0⟩ } }) ∧
    (∀ g, s.link.framer = .length g → b.toNat < 3 ∨ 200 < b.toNat →
      exec (.byteReceived (.byte b)) s =
        .next { s with
          link :=
            { s.link with
              framer := .hunt
              counters := { s.link.counters with format := min 65535 (s.link.counters.format + 1) } } }) ∧
    (∀ len taken g, s.link.framer = .body len taken g → taken.length + 1 < len.toNat + 2 →
      exec (.byteReceived (.byte b)) s =
        .next { s with link := { s.link with framer := .body len (taken ++ [b]) ⟨5, 0⟩ } }) ∧
    (∀ len body high g, s.link.framer = .body len (body ++ [high]) g → body.length = len.toNat →
      exec (.byteReceived (.byte b)) s =
        .next { s with
          link := { s.link with framer := .hunt, completed := s.link.completed ++ [⟨len, body, high, b⟩] } })) ∧
  (∀ (s : State) (e : LineEvent), s.link.resetnLow = false → e = .damaged ∨ e = .breakSignal →
    (s.link.framer = .hunt → exec (.byteReceived e) s = .next s) ∧
    (s.link.framer ≠ .hunt →
      exec (.byteReceived e) s =
        .next { s with
          link :=
            { s.link with
              framer := .hunt
              counters := { s.link.counters with format := min 65535 (s.link.counters.format + 1) } } })) ∧
  (∀ (s : State) (late : Nat) (g : Timer), s.link.framer.gap = some g → s.mayRun (g.wait late) = true →
    exec (.frameGapExpiry late) s =
      .next { s.runTo g late with
        link :=
          { (s.runTo g late).link with
            framer := .hunt
            counters := { s.link.counters with gap := min 65535 (s.link.counters.gap + 1) } } })

/-- The CRC of the nine ASCII digits 1 to 9 (R173). A complete frame is checked: a bad CRC counts in CRC and is all; a
good frame restarts the keepalive of an OPEN session, and by its KIND joins the intake, is dropped from a full one
with a count in DROPPED, or counts in FORMAT (R173, R174, R176, R186). -/
def Obligations.FramesAreCheckedByTheirCrc : Prop :=
  (crc16 [0x31, 0x32, 0x33, 0x34, 0x35, 0x36, 0x37, 0x38, 0x39] = 0x29B1) ∧
  (∀ (s : State) (f : RxFrame) (rest : List RxFrame), s.link.completed = f :: rest →
    let good := crc16 (f.len :: f.body) = f.crcHigh.setWidth 16 <<< 8 ||| f.crcLow.setWidth 16
    let alive : Option Timer :=
      if s.link.session = .opened then s.link.keepalive.map (fun t => ⟨t.duration, 0⟩) else s.link.keepalive
    let c := s.link.counters
    (¬ good →
      exec .frameReceived s =
        .next { s with
          link := { s.link with completed := rest, counters := { c with crc := min 65535 (c.crc + 1) } } }) ∧
    (good → ∀ kind tag code area, f.body = kind :: tag :: code :: area →
      (kind = 1 ∨ kind = 2 → s.link.intake.length < 4 →
        exec .frameReceived s =
          .next { s with
            link :=
              { s.link with
                completed := rest
                keepalive := alive
                intake := s.link.intake ++ [⟨decide (kind = 2), tag, code, area⟩] } }) ∧
      (kind = 1 ∨ kind = 2 → 4 ≤ s.link.intake.length →
        exec .frameReceived s =
          .next { s with
            link :=
              { s.link with
                completed := rest
                keepalive := alive
                counters := { c with dropped := min 65535 (c.dropped + 1) } } }) ∧
      (kind ≠ 1 → kind ≠ 2 →
        exec .frameReceived s =
          .next { s with
            link :=
              { s.link with
                completed := rest
                keepalive := alive
                counters := { c with format := min 65535 (c.format + 1) } } })))

/-- The fields of a request, laid out as table 11-4 and R195 say, are read back as they are: every field of the request at
every value its length and sign can carry, in any order, no field twice but a list field. -/
def Obligations.FieldAreaReadsBackWhatItEncodes : Prop :=
  ∀ (c : ReqCode) (fs : List Field),
    (∀ e ∈ fs, c.hasField e.1 = true) →
    (∀ e ∈ fs, e.1.signed = true → -(2 ^ (8 * e.1.size - 1) : Int) ≤ e.2 ∧ e.2 < (2 ^ (8 * e.1.size - 1) : Int)) →
    (∀ e ∈ fs, e.1.signed = false → 0 ≤ e.2 ∧ e.2 < (2 ^ (8 * e.1.size) : Int)) →
    ((fs.filter (fun e => !e.1.isList)).map (·.1)).Nodup →
    c.read (fs.flatMap encodeField) = .good fs

/-- A field area is out of order exactly when, behind fields of the request that are in order, there stands an id that
is no field of the request, one whose length byte is not the length of table 11-5, one whose length or value runs past
the end of the body, or a second occurrence of a field that is not a list; that id is the one named, the first such in
the order of the body. A request with such an area is answered BAD-FORMAT with that id in DETAIL, and one with every
field in order but a required one missing with the lowest missing id; SEEK-DIR of a HOME with a switch method is
required too (R178 step 1, R21). With none missing, an ENQUEUE with STATION and TARGET, with neither, or with TARGET and
no PROFILE, and a CANCEL with ORDER-TAG and ALL or with neither, are answered BAD-FORMAT with the id that R59 and R72
name. Nothing else changes. A request whose CODE is in no row of table 11-8 is answered BAD-FORMAT without DETAIL (R178,
R194). -/
def Obligations.FormatErrorsAreAnswered : Prop :=
  (∀ (c : ReqCode) (area : List Byte) (n : Nat),
    let onLine (e : FieldId × List Byte) : List Byte := BitVec.ofNat 8 e.1.code :: BitVec.ofNat 8 e.1.size :: e.2
    c.read area = .bad n ↔
      ∃ (before : List (FieldId × List Byte)) (id : Byte) (rest : List Byte),
        area = before.flatMap onLine ++ id :: rest ∧ n = id.toNat ∧
        (∀ e ∈ before, c.hasField e.1 = true ∧ e.2.length = e.1.size) ∧
        ((before.map (·.1)).filter (fun f => !f.isList)).Nodup ∧
        ((∀ f, c.hasField f = true → f.code ≠ id.toNat) ∨
          ∃ f, c.hasField f = true ∧ f.code = id.toNat ∧
            (rest = [] ∨
              (∃ len value, rest = len :: value ∧ (len.toNat ≠ f.size ∨ value.length < f.size)) ∨
              f.isList = false ∧ f ∈ before.map (·.1)))) ∧
  (∀ (c : ReqCode) (s : State) (r : Request), s.dueRequest (some c) = some r →
    let badFormat (id : Nat) : Prop := exec c.command s = .next (s.answered r ⟨.badFormat, [(.detail, id)], [], []⟩)
    (∀ id, c.read r.area = .bad id → badFormat id) ∧
    ∀ fs, c.read r.area = .good fs →
      let needed (f : FieldId) : Prop :=
        f ∈ c.required ∨
          c = .home ∧ f = .seekDir ∧ (fieldValue fs .method = some 0 ∨ fieldValue fs .method = some 1)
      (∀ f, needed f → carries fs f = false → (∀ g, needed g → carries fs g = false → f.code ≤ g.code) →
        badFormat f.code) ∧
      ((∀ f ∈ c.required, carries fs f = true) → c = .enqueue →
        (carries fs .station = true → carries fs .target = true → badFormat 97) ∧
        (carries fs .station = false → carries fs .target = false → badFormat 80) ∧
        (carries fs .station = false → carries fs .target = true → carries fs .profile = false → badFormat 81)) ∧
      ((∀ f ∈ c.required, carries fs f = true) → c = .cancel →
        (carries fs .orderTag = true → carries fs .all = true → badFormat 100) ∧
        (carries fs .orderTag = false → carries fs .all = false → badFormat 96))) ∧
  (∀ (s : State) (r : Request), s.dueRequest none = some r →
    exec .unknownRequestCode s = .next (s.answered r ⟨.badFormat, [], [], []⟩))

/-- In a CLOSED session every request of good format but OPEN, IDENTIFY and PING is answered NOT-OPEN, and nothing
else changes (R178 step 2, R184). Of a request that passes the session check, a field out of its range is answered
BAD-VALUE with the id of the first such field in the order of the body, and nothing else changes (R178 step 3). The range
of each field of a request is that of tables 11-5 and 11-6 (R195). -/
def Obligations.SessionAndValueErrorsAreAnswered : Prop :=
  (∀ (c : ReqCode) (s : State) (r : Request) (fs : List Field), s.dueRequest (some c) = some r →
    c.read r.area = .good fs → (∀ f ∈ c.requiredNow fs, carries fs f = true) → c.presence fs = none →
    s.link.session = .closed → c ≠ .openSession → c ≠ .identify → c ≠ .ping →
    exec c.command s = .next (s.answered r ⟨.notOpen, [], [], []⟩)) ∧
  (∀ (c : ReqCode) (s : State) (r : Request) (good rest : List Field) (f : FieldId) (v : Int),
    s.dueRequest (some c) = some r → c.read r.area = .good (good ++ (f, v) :: rest) →
    (∀ g ∈ c.requiredNow (good ++ (f, v) :: rest), carries (good ++ (f, v) :: rest) g = true) →
    c.presence (good ++ (f, v) :: rest) = none →
    s.link.session = .opened ∨ c = .openSession ∨ c = .identify ∨ c = .ping →
    (∀ e ∈ good, e.1.inRange c e.2 = true) → f.inRange c v = false →
    exec c.command s = .next (s.answered r ⟨.badValue, [(.detail, f.code)], [], []⟩)) ∧
  (∀ (c : ReqCode) (v : Int),
    let ranges (lo hi : Int) (fs : List FieldId) : Prop := ∀ f ∈ fs, f.inRange c v = true ↔ lo ≤ v ∧ v ≤ hi
    let zeroOr (lo hi : Int) (f : FieldId) : Prop := f.inRange c v = true ↔ v = 0 ∨ lo ≤ v ∧ v ≤ hi
    ranges 0 1 [.clear, .role, .kind, .countSense, .lineCheck, .senseLevel, .shiftMode, .fast, .chain, .notify, .flush,
      .speed] ∧
    ranges 0 2 [.rotPolicy, .method, .approach, .direction, .limitRole] ∧
    ranges 1 2 [.seekDir, .qualifyDir] ∧ ranges 0 3 [.axis, .stopAxis, .report, .captureMode] ∧ ranges 1 1 [.all] ∧
    ranges 0 7 [.skip, .corrections] ∧ ranges 0 8 [.output] ∧ ranges 1 5 [.count] ∧ ranges 1 12 [.guard] ∧
    ranges 0 15 [.profile] ∧ ranges 1 48 [.window, .member] ∧ ranges 0 255 [.indexTol, .mask, .values] ∧
    ranges 1 999 [.station, .first] ∧ ranges 10 2000 [.restTime] ∧ ranges 20 5000 [.reversalGap] ∧
    ranges 50 5000 [.deadman] ∧ ranges 0 30000 [.settle] ∧ ranges 0 65535 [.windowDist] ∧
    ranges 1 65535 [.orderTag, .seq] ∧ ranges 0 1048575 [.cutDist] ∧ ranges 1 1048575 [.takeupDist] ∧
    ranges 0 16777215 [.slowDist] ∧ ranges 16 16777215 [.modulus] ∧ ranges (-16777215) 16777215 [.shift] ∧
    ranges (-67108863) 67108863 [.position, .datum, .target, .lower, .upper] ∧
    (c = .home → ranges 1 600 [.timeLimit]) ∧ (c ≠ .home → ranges 0 3600 [.timeLimit]) ∧
    zeroOr 100 60000 .keepalive ∧ zeroOr 4 16777215 .indexSpacing ∧ zeroOr 50 30000 .stallTime)

/-- What the reply cache holds after an execution: the new reply last, no other with its tag, of the others at most
the newest seven in their order (R182). A RETRY whose TAG is cached is answered with a copy of that reply and executed
no more (R183). A request is due for execution exactly when it is the oldest of the intake, its CODE is the row's (none:
in no row of table 11-8), fewer than 4 replies wait, no RESTART is pending, and it is no RETRY whose TAG is cached (R177,
R183, R191). A RETRY whose TAG is not cached is executed as the same request of kind REQUEST would be (R183). -/
def Obligations.ReplyCacheAnswersRetries : Prop :=
  (∀ (cache : List Reply) (r : Reply), cache.length ≤ 8 → (cache.map (·.tag)).Nodup →
    let others := cache.filter (fun e => e.tag != r.tag)
    (cacheWrite cache r).length ≤ 8 ∧ ((cacheWrite cache r).map (·.tag)).Nodup ∧
    cacheWrite cache r = others.drop (others.length - 7) ++ [r]) ∧
  (∀ (s : State) (r : Request) (rest : List Request) (p : Reply), s.link.intake = r :: rest → r.retry = true →
    p ∈ s.link.cache → p.tag = r.tag → (s.link.cache.map (·.tag)).Nodup → s.link.replies.length < 4 →
    s.link.restart = .none →
    exec .retryFromCache s =
      .next { s with link := { s.link with intake := rest, replies := s.link.replies ++ [p] } }) ∧
  (∀ (s : State) (c : Option ReqCode) (r : Request),
    let named : Prop :=
      match c with
      | some k => r.code.toNat = k.code
      | none => ∀ k : ReqCode, r.code.toNat ≠ k.code
    s.dueRequest c = some r ↔
      (∃ rest, s.link.intake = r :: rest) ∧ named ∧ s.link.replies.length < 4 ∧ s.link.restart = .none ∧
        (r.retry = true → ∀ p ∈ s.link.cache, p.tag ≠ r.tag)) ∧
  (∀ (s : State) (c : Option ReqCode) (r : Request) (rest : List Request), s.link.intake = r :: rest →
    r.retry = true → s.dueRequest c = some r →
    let command : Instr := c.elim .unknownRequestCode ReqCode.command
    exec command s = exec command { s with link := { s.link with intake := { r with retry := false } :: rest } })

/-! ### The transmitter -/

/-- A free transmitter takes the oldest reply, which leaves the reply queue; with RESTART pending and no reply behind
it, this is the frame whose end resets the part (R181, R191). With no reply waiting, a free transmitter in an OPEN
session with fewer than 8 notices SENT takes the oldest UNSENT notice, which becomes SENT (R161, R180, R181). What goes on
the line: a frame is SYNC, LEN, the body and its CRC high byte first; a field is its id, its length and its value low byte
first in two's complement; a reply's fields stand alone in increasing id, each group from its leading field in increasing
id, then the trailing field; a notice has its number, its time, its kind and the fields of table 9-2 in increasing id
(R173, R194 to R196). The time a frame takes is the model's choice, notes/assumptions/22.md. -/
def Obligations.FramesBegin : Prop :=
  let frame (rate : Nat) (body : List Byte) : TxFrame :=
    let len : Byte := BitVec.ofNat 8 body.length
    let crc := crc16 (len :: body)
    ⟨0x5A :: len :: body ++ [crc.extractLsb' 8 8, crc.extractLsb' 0 8], ⟨10 * (body.length + 4) * 1000 / rate, 0⟩⟩
  let bytes (n : Nat) (v : Int) : List Byte := (List.range n).map (fun i => BitVec.ofInt 8 (v / 256 ^ i))
  let fieldBytes (id size : Nat) (v : Int) : List Byte := BitVec.ofNat 8 id :: BitVec.ofNat 8 size :: bytes size v
  (∀ (s : State) (p : Reply) (rest : List Reply), s.link.transmitter = none → s.link.replies = p :: rest →
    exec .replyFrameStart s =
      .next { s with
        link :=
          { s.link with
            replies := rest
            transmitter := some (frame s.link.rate p.frameBody)
            restart := if s.link.restart = .replyWaiting ∧ rest = [] then .replySending else s.link.restart } }) ∧
  (∀ (s : State) (sent rest : List Notice) (n : Notice), s.link.transmitter = none → s.link.replies = [] →
    s.link.session = .opened → s.notices.entries = sent ++ n :: rest → (∀ e ∈ sent, e.sent = true) → n.sent = false →
    s.notices.sentCount < 8 →
    exec .noticeFrameStart s =
      .next { s with
        notices := { s.notices with entries := sent ++ { n with sent := true } :: rest }
        link := { s.link with transmitter := some (frame s.link.rate n.frameBody) } }) ∧
  (∀ p : Reply,
    p.frameBody =
      3 :: p.tag :: BitVec.ofNat 8 p.answer.result.code ::
        (inIdOrder p.answer.alone ++
          p.answer.groups.flatMap (fun g =>
            match g with
            | [] => []
            | lead :: others => lead :: inIdOrder others) ++ p.answer.trailing).flatMap
          (fun e => fieldBytes e.1.code e.1.size e.2)) ∧
  (∀ fs : List Field, (inIdOrder fs).Perm fs ∧ (inIdOrder fs).Pairwise (fun e f => e.1.code ≤ f.1.code) ∧
    ∀ f, (inIdOrder fs).filter (fun e => e.1 == f) = fs.filter (fun e => e.1 == f)) ∧
  (∀ n : Notice,
    let axis (a : AxisId) : Nat × Nat × Int := (1, 1, a.num)
    let carried : Nat × List (Nat × Nat × Int) :=
      match n.body with
      | .startup c => (1, [(22, 1, c.code)])
      | .orderStarted a tag target dir takeup =>
        (2, [axis a, (96, 2, tag), (104, 4, target),
          (107, 1, match dir with
            | none => 0
            | some d => d.code), (108, 1, if takeup then 1 else 0)])
      | .orderDone a tag why p used =>
        (3, [axis a] ++ (match p with
          | none => []
          | some p => [(46, 4, p)]) ++
            [(96, 2, (tag : Int)), (109, 1, (used : Int)), (110, 1, if why = .none then 0 else 1), (111, 1, why.code)])
      | .zone a tag z => (4, [axis a, (96, 2, tag), (112, 1, z.code)])
      | .homed a p => (5, [axis a, (46, 4, p)])
      | .homeFailed a why => (6, [axis a, (111, 1, why.code)])
      | .jogEnded a why => (7, [axis a, (111, 1, why.code)])
      | .fault a k raw => (8, [axis a, (45, 4, raw.toInt), (153, 1, k.code)])
      | .window w c p => (9, [(46, 4, p), (120, 1, w), (127, 1, c.code)])
      | .guard g st => (10, [(128, 1, g), (131, 1, st.code)])
      | .captureWaiting a => (11, [axis a])
      | .linkLost stopped t => (12, stopped.map (fun a => (154, 1, (a.num : Int))) ++ [(155, 4, (t.toNat : Int))])
      | .discarded k => (13, [(146, 2, k)])
    n.frameBody =
      4 :: bytes 2 n.seq ++ bytes 4 n.time.toNat ++ BitVec.ofNat 8 carried.1 ::
        carried.2.flatMap (fun e => fieldBytes e.1 e.2.1 e.2.2))

/-- The end of a frame frees the transmitter; the end of a RESTART reply resets the part with cause REQUEST, on the straps
read then, with the RUN-off of each RUN line that was on (R111, R170, R181, R191, R192). The clock's part is the model's
choice, notes/assumptions/2.md and 22.md. -/
def Obligations.FrameEndFreesOrRestarts : Prop :=
  ∀ (s : State) (late : Nat) (st : Straps) (f : TxFrame), s.link.transmitter = some f →
    s.mayRun (f.timer.wait late) = true →
    (s.link.restart ≠ .replySending →
      exec (.frameEnd ⟨late, st⟩) s =
        .next { s.runTo f.timer late with link := { (s.runTo f.timer late).link with transmitter := none } }) ∧
    (s.link.restart = .replySending →
      ∃ t, exec (.frameEnd ⟨late, st⟩) s = .next t ∧ ResetOf .request st false s t ∧
        ∀ a, (∀ d h, (s.axis a).lines = .run d h → (t.axis a).lockout = some ⟨d, 0, some ⟨200, 0⟩, 0⟩) ∧
          ((s.axis a).lines = .off → s.link.resetnLow = false → (t.axis a).lockout = none))

/-! ### Sessions -/

/-- OPEN in a CLOSED session opens it, empties the cache, starts the keepalive and leaves the axes alone; in an OPEN
one it is refused WRONG-STATE (R185). CLOSE with no axis in motion closes the session, holds every IDLE or WAITING
axis that has a queue, makes every SENT notice UNSENT, discards the waiting replies and the cache, and answers; with
an axis in motion it is refused (R187). -/
def Obligations.OpenAndCloseChangeTheSession : Prop :=
  (∀ (s : State) (r : Request) (fs : List Field), Serves s .openSession r fs →
    let ans : Answer := ⟨.ok, [(.keepalive, fieldInt fs .keepalive), (.queued, s.notices.entries.length)], [], []⟩
    (s.link.session = .closed →
      exec .openSession s =
        .next { s with
          link :=
            { s.link with
              intake := s.link.intake.tail
              session := .opened
              keepalive := if fieldInt fs .keepalive = 0 then none else some ⟨(fieldInt fs .keepalive).toNat, 0⟩
              replies := s.link.replies ++ [⟨r.tag, ans⟩]
              cache := [⟨r.tag, ans⟩] } }) ∧
    (s.link.session = .opened → exec .openSession s = .next (s.answered r ⟨.wrongState, [], [], []⟩))) ∧
  (∀ (s : State) (r : Request) (fs : List Field), Serves s .closeSession r fs →
    ((∃ a, (s.axis a).motion.inMotion = true) →
      exec .closeSession s = .next (s.answered r ⟨.wrongState, [], [], []⟩)) ∧
    ((∀ a, (s.axis a).motion.inMotion = false) →
      ∃ t, exec .closeSession s = .next t ∧
        t.link =
          { s.link with
            intake := s.link.intake.tail
            session := .closed
            keepalive := none
            replies := [⟨r.tag, ⟨.ok, [], [], []⟩⟩]
            cache := [⟨r.tag, ⟨.ok, [], [], []⟩⟩] } ∧
        t.notices = { s.notices with entries := s.notices.entries.map (fun n => { n with sent := false }) } ∧
        t.tables = s.tables ∧ t.monitor = s.monitor ∧ t.timebase = s.timebase ∧ t.micros = s.micros ∧
        ∀ a, ((s.axis a).motion = .idle ∨ (s.axis a).motion = .waiting → (s.axis a).queue ≠ [] →
            t.axis a = { s.axis a with motion := .held, holdPending := false }) ∧
          ((s.axis a).motion ≠ .idle ∧ (s.axis a).motion ≠ .waiting ∨ (s.axis a).queue = [] →
            t.axis a = s.axis a)))

/-- PING and IDENTIFY are answered in both session states, with SESSION and with the values of table 10-1, and change
nothing else (R190). LINK-STATUS reports the four counters, and with CLEAR 1 sets them to 0 behind the report (R175).
RESTART is answered OK, and the Link Port then executes no request (R191). -/
def Obligations.LinkPortAnswersItsOwnRequests : Prop :=
  (∀ (s : State) (r : Request) (fs : List Field),
    (Serves s .ping r fs →
      exec .ping s = .next (s.answered r ⟨.ok, [(.session, s.link.session.code)], [], []⟩)) ∧
    (Serves s .identify r fs →
      exec .identify s =
        .next (s.answered r
          ⟨.ok, [(.session, s.link.session.code), (.vendorCode, 2908), (.partCode, 410), (.revision, 3), (.axes, 4),
            (.stations, 384), (.profiles, 16), (.windows, 48), (.guards, 12), (.queue, 8), (.notices, 32),
            (.linkRate, s.link.rate)], [], []⟩))) ∧
  (∀ (s : State) (r : Request) (fs : List Field), Serves s .linkStatus r fs →
    let c := s.link.counters
    let t := s.answered r ⟨.ok, [(.crc, c.crc), (.gap, c.gap), (.format, c.format), (.dropped, c.dropped)], [], []⟩
    (fieldInt fs .clear ≠ 1 → exec .linkStatus s = .next t) ∧
    (fieldInt fs .clear = 1 →
      exec .linkStatus s = .next { t with link := { t.link with counters := ⟨0, 0, 0, 0⟩ } })) ∧
  (∀ (s : State) (r : Request) (fs : List Field), Serves s .restart r fs →
    let t : State :=
      { s.answered r ⟨.ok, [], [], []⟩ with
        link := { (s.answered r ⟨.ok, [], [], []⟩).link with restart := .replyWaiting } }
    exec .restart s = .next t ∧ ∀ c, t.dueRequest c = none)

/-- The keepalive's expiry in an OPEN session is link loss: the session CLOSED, the intake, the replies and the cache
empty; every axis in motion stopped HELD with its notice of reason LINK-LOST (MOVING: ORDER-DONE with the position while
REFERENCED and the corrections used, R104; HOMING: HOME-FAILED, R33; JOGGING: JOG-ENDED, R119; no other axis has one),
every other axis with a queue that could start HELD; every notice UNSENT, with LINK-LOST naming the stopped axes (R188).
The order of these notices is the command's. Where the loss has discarded the reply of a RESTART, the part is reset with
cause REQUEST (R191, R192); its axes were stopped before that, so no lockout is left: notes/assumptions/19.md. -/
def Obligations.KeepaliveExpiryIsLinkLoss : Prop :=
  ∀ (s : State) (order : List Block) (late : Nat) (st : Straps) (k : Timer), s.link.keepalive = some k →
    s.mayRun (k.wait late) = true → s.link.session = .opened →
    let v := s.runTo k late
    let ended (a : AxisId) : List NoticeBody :=
      match (v.axis a).motion with
      | .moving o => [.orderDone a o.order.tag .linkLost (v.axis a).position o.corrections]
      | .homing _ => [.homeFailed a .linkLost]
      | .jogging _ => [.jogEnded a .linkLost]
      | .idle | .held | .waiting | .faulted => []
    (s.link.restart ≠ .replyWaiting →
    ∃ t bodies, exec (.keepaliveExpiry order ⟨late, st⟩) s = .next t ∧
      t.link =
        { v.link with session := .closed, keepalive := none, intake := [], replies := [], cache := [] } ∧
      t.tables = s.tables ∧ t.monitor = s.monitor ∧ t.timebase = v.timebase ∧ t.micros = v.micros ∧
      t.notices = (({ v with notices := { v.notices with
        entries := v.notices.entries.map (fun n => { n with sent := false }) } } : State).offers bodies).notices ∧
      bodies.Perm
        (.linkLost (AxisId.all.filter (fun a => (s.axis a).motion.inMotion)) v.timebase ::
          AxisId.all.flatMap ended) ∧
      ∀ a,
        ((s.axis a).motion.inMotion = true →
          t.axis a =
            { (v.axis a).turnOff v.timebase with stall := none, motion := .held, holdPending := false }) ∧
        ((s.axis a).motion = .idle ∨ (s.axis a).motion = .waiting → (s.axis a).queue ≠ [] →
          t.axis a = { v.axis a with motion := .held, holdPending := false }) ∧
        ((s.axis a).motion = .held ∨ (s.axis a).motion = .faulted ∨
            ((s.axis a).motion = .idle ∨ (s.axis a).motion = .waiting) ∧ (s.axis a).queue = [] →
          t.axis a = v.axis a)) ∧
    (s.link.restart = .replyWaiting →
      ∃ t, exec (.keepaliveExpiry order ⟨late, st⟩) s = .next t ∧ ResetOf .request st false s t ∧
        ∀ a, s.link.resetnLow = false → (s.axis a).lines = .off ∨ (s.axis a).motion.inMotion = true →
          (t.axis a).lockout = none)

/-! ### Axes: configuration, status, faults -/

/-- SET-AXIS on an IDLE or HELD axis with an empty queue stores every field it carries and keeps the others; a change of
KIND, MODULUS or COUNT-SENSE drops the reference, its windows UNKNOWN, a change of the index check clears the baseline,
and any other keeps both; a changed REVERSAL-GAP moves the end of a lockout in force to the turn-off plus the new gap,
or, when that has passed, to within 1 ms of the request (R112); LINE-CHECK 0 to 1 with the line-fault condition present
raises LINE, once for one condition (R12), with its record, its notice and its claim; anywhere else it is refused WRONG-
STATE (R2, R3). -/
def Obligations.SetAxisStoresItsFields : Prop :=
  ∀ (s : State) (r : Request) (fs : List Field) (a : AxisId), Serves s .setAxis r fs → fieldAxis fs = a →
    let x := s.axis a
    let c := x.config
    let d : AxisConfig :=
      { role := (fieldValue fs .role).elim c.role Role.ofCode
        kind := (fieldValue fs .kind).elim c.kind AxisKind.ofCode
        modulus := (fieldValue fs .modulus).elim c.modulus Int.toNat
        countSense := (fieldValue fs .countSense).elim c.countSense CountSense.ofCode
        rotPolicy := (fieldValue fs .rotPolicy).elim c.rotPolicy RotPolicy.ofCode
        indexSpacing := (fieldValue fs .indexSpacing).elim c.indexSpacing Int.toNat
        indexTol := (fieldValue fs .indexTol).elim c.indexTol Int.toNat
        lineCheck := (fieldValue fs .lineCheck).elim c.lineCheck (· == 1)
        stallTime := (fieldValue fs .stallTime).elim c.stallTime Int.toNat
        restTime := (fieldValue fs .restTime).elim c.restTime Int.toNat
        reversalGap := (fieldValue fs .reversalGap).elim c.reversalGap Int.toNat
        senseLevel := (fieldValue fs .senseLevel).elim c.senseLevel SenseLevel.ofCode }
    let raises : Prop := c.lineCheck = false ∧ d.lineCheck = true ∧ x.counting.lineFault = true ∧
      x.counting.lineRaised = false
    let drops : Prop := d.kind ≠ c.kind ∨ d.modulus ≠ c.modulus ∨ d.countSense ≠ c.countSense
    let kept : Axis :=
      { x with
        config := d
        lockout :=
          if d.reversalGap = c.reversalGap then x.lockout
          else x.lockout.map (fun r =>
            match r.timer with
            | none => r
            | some t =>
              let since := r.spent + t.elapsed
              { r with timer := some ⟨d.reversalGap, min since (1000 * d.reversalGap)⟩
                       spent := since - 1000 * d.reversalGap })
        counting :=
          { x.counting with
            baseline :=
              if d.indexSpacing = c.indexSpacing ∧ d.indexTol = c.indexTol then x.counting.baseline else none } }
    let raised : Axis :=
      { kept with
        counting :=
          { kept.counting.dropped with
            lineRaised := true
            fault := (Axis.recordFault a s.timebase .line x).1.counting.fault }
        faultClaims := x.faultClaims ++ [.line] }
    (x.motion ≠ .idle ∧ x.motion ≠ .held ∨ x.queue ≠ [] →
      exec .setAxis s = .next (s.answered r ⟨.wrongState, [], [], []⟩)) ∧
    (x.motion = .idle ∨ x.motion = .held → x.queue = [] →
      (¬ drops → ¬ raises →
        exec .setAxis s =
          .next ((s.setAxis a kept).answered r ⟨.ok, [(.reference, x.counting.reference.code)], [], []⟩)) ∧
      (drops → ¬ raises → s.MonitorOk →
        exec .setAxis s =
          .next ((s.lost a { kept with counting := kept.counting.dropped }).answered r
            ⟨.ok, [(.reference, 0)], [], []⟩)) ∧
      (raises → s.MonitorOk →
        exec .setAxis s =
          .next (((s.lost a raised).offers (Axis.recordFault a s.timebase .line x).2).answered r
            ⟨.ok, [(.reference, 0)], [], []⟩)))

/-- GET-AXIS reports the axis number and the twelve configuration values, MODULUS whatever the KIND, and changes nothing
but its own answer (R4). -/
def Obligations.GetAxisReportsTheConfiguration : Prop :=
  ∀ (s : State) (r : Request) (fs : List Field) (a : AxisId), Serves s .getAxis r fs → fieldAxis fs = a →
    let c := (s.axis a).config
    exec .getAxis s =
      .next (s.answered r
        ⟨.ok, [(.axis, a.num), (.role, c.role.code), (.kind, c.kind.code), (.modulus, c.modulus),
          (.countSense, c.countSense.code), (.rotPolicy, c.rotPolicy.code), (.indexSpacing, c.indexSpacing),
          (.indexTol, c.indexTol), (.lineCheck, if c.lineCheck then 1 else 0), (.stallTime, c.stallTime),
          (.restTime, c.restTime), (.reversalGap, c.reversalGap), (.senseLevel, c.senseLevel.code)], [], []⟩) ∧
    0 ≤ fieldInt fs .axis ∧ fieldInt fs .axis ≤ 3 ∧ (a.num : Int) = fieldInt fs .axis

/-- AXIS-STATUS reports the fields of table 1-2, each once and no other, the kinds of LATER-FAULT in the order they were
added, and changes nothing but its own answer (R19): POSITION while REFERENCED, ORDER-TAG while MOVING. The order on the
line is FramesBegin's. The fault fields are present while the axis is FAULTED and has a record, and LATER-FAULT has no
occurrence otherwise: the model's reading, notes/assumptions/13.md, where table 1-2 says while FAULTED. -/
def Obligations.AxisStatusReportsTheAxis : Prop :=
  ∀ (s : State) (r : Request) (fs : List Field) (a : AxisId), Serves s .axisStatus r fs → fieldAxis fs = a →
    let x := s.axis a
    let faults : List Field :=
      match x.motion, x.counting.fault with
      | .faulted, some f =>
        [(.firstFault, (f.first.code : Int)), (.faultTime, f.time.toNat), (.faultCount, f.count.toInt)] ++
          f.later.map (fun k => (.laterFault, (k.code : Int)))
      | _, _ => []
    ∃ alone : List Field, exec .axisStatus s = .next (s.answered r ⟨.ok, alone, [], []⟩) ∧
      alone.Perm
        ([((.axis : FieldId), (a.num : Int)), (.rawCount, x.counting.raw.toInt),
          (.reference, x.counting.reference.code), (.motion, x.motion.code), (.substate, x.motion.substateCode),
          (.queueLength, x.moveQueue.length), (.lines, x.lines.code), (.holdPending, if x.holdPending then 1 else 0),
          (.captures, x.log.ring.length), (.shift, x.counting.shift)] ++
        (match x.position with
          | none => []
          | some p => [(.position, p)]) ++
        (match x.motion with
          | .moving o => [(.orderTag, (o.order.tag : Int))]
          | _ => []) ++
        faults) ∧
      fieldList alone .laterFault = fieldList faults .laterFault

/-- CLEAR-FAULT makes a FAULTED axis HELD with an empty fault record, reference and queue kept; an axis not FAULTED is
WRONG-STATE, a line fault still present under LINE-CHECK is CONFLICT (R18). -/
def Obligations.ClearFaultReturnsTheAxisToHeld : Prop :=
  ∀ (s : State) (r : Request) (fs : List Field) (a : AxisId), Serves s .clearFault r fs → fieldAxis fs = a →
    let x := s.axis a
    (x.motion ≠ .faulted → exec .clearFault s = .next (s.answered r ⟨.wrongState, [], [], []⟩)) ∧
    (x.motion = .faulted → x.counting.lineFault = true → x.config.lineCheck = true →
      exec .clearFault s = .next (s.answered r ⟨.conflict, [], [], []⟩)) ∧
    (x.motion = .faulted → x.counting.lineFault = false ∨ x.config.lineCheck = false →
      exec .clearFault s =
        .next ((s.setAxis a { x with
          counting := { x.counting with fault := none }, motion := .held, holdPending := false }).answered r
            ⟨.ok, [], [], []⟩))

/-- One fault enters the record and offers its notice by R16: the first with time and count, a new later kind behind,
a kind already recorded nothing. The oldest fault claim in flight ends whatever the axis does, with the fault kind,
and leaves it FAULTED with its lines off, its flag 0 and its queue kept (R17, R103, R119). A reference that the axis has
gained between a counting fault and its claim is dropped with the claim (R10, R34), the model's reading,
notes/assumptions/27.md. That a SLIP or OVERRANGE claim sent before HOME was accepted fails the run with its kind, where R33
names LINE and STALL alone, is the model's reading too, notes/assumptions/30.md, and so is that a claim taken after
CLEAR-FAULT leaves the axis FAULTED with an empty record, notes/assumptions/13.md. The stall timer's expiry turns the lines
off, records STALL with its notice first, and leaves the axis FAULTED with its reference kept (R15, R16, R17, R99). -/
def Obligations.FaultsEndOperations : Prop :=
  (∀ (a : AxisId) (now : Time) (k : FaultKind) (x : Axis),
    (x.counting.fault = none →
      Axis.recordFault a now k x =
        ({ x with counting := { x.counting with fault := some ⟨k, now, x.counting.raw, []⟩ } },
          [.fault a k x.counting.raw])) ∧
    (∀ f, x.counting.fault = some f → k = f.first ∨ k ∈ f.later → Axis.recordFault a now k x = (x, [])) ∧
    (∀ f, x.counting.fault = some f → k ≠ f.first → k ∉ f.later →
      Axis.recordFault a now k x =
        ({ x with counting := { x.counting with fault := some { f with later := f.later ++ [k] } } },
          [.fault a k x.counting.raw]))) ∧
  (∀ (s : State) (a : AxisId) (k : FaultKind) (rest : List FaultKind), (s.axis a).faultClaims = k :: rest →
    let x := s.axis a
    let drops : Prop := k ≠ .stall ∧ x.counting.reference = .referenced
    let counting : CountingUnit := if k = .stall then x.counting else x.counting.dropped
    let left (y : Axis) : State :=
      if k = .stall then s.setAxis a { y with counting := counting } else s.lost a { y with counting := counting }
    let off : Axis :=
      { x.turnOff s.timebase with faultClaims := rest, stall := none, motion := .faulted, holdPending := false }
    (drops → s.MonitorOk) →
    (∀ o, x.motion = .moving o →
      exec (.faultClaim a) s =
        .next ((left off).offers
          [.orderDone a o.order.tag k.reason (if k = .stall then x.position else none) o.corrections])) ∧
    (∀ h, x.motion = .homing h → exec (.faultClaim a) s = .next ((left off).offers [.homeFailed a k.reason])) ∧
    (∀ j, x.motion = .jogging j → exec (.faultClaim a) s = .next ((left off).offers [.jogEnded a k.reason])) ∧
    (x.motion.inMotion = false →
      exec (.faultClaim a) s =
        .next (left { x with faultClaims := rest, motion := .faulted, holdPending := false }))) ∧
  (∀ (s : State) (a : AxisId) (late : Nat) (t : Timer), (s.axis a).stall = some t → s.mayRun (t.wait late) = true →
    let v := s.runTo t late
    let x := v.axis a
    let record := Axis.recordFault a v.timebase .stall x
    let off : Axis :=
      { x.turnOff v.timebase with
        counting := record.1.counting, stall := none, motion := .faulted, holdPending := false }
    let gives (ended : List NoticeBody) : Prop :=
      exec (.stallTimerExpiry a late) s = .next ((v.setAxis a off).offers (record.2 ++ ended))
    (∀ o, x.motion = .moving o → gives [.orderDone a o.order.tag .stall x.position o.corrections]) ∧
    (∀ h, x.motion = .homing h → gives [.homeFailed a .stall]) ∧
    (∀ j, x.motion = .jogging j → gives [.jogEnded a .stall]) ∧
    (x.motion.inMotion = false → gives []) ∧
    off.counting.reference = x.counting.reference)

/-! ### Counting -/

/-- Any change of A and B: both together or neither are not counted, whatever the reference, and nothing but the pins
changes (R6). On an UNREFERENCED axis an edge of one of them moves the raw count by one in the direction of R6 and records
it, and starts the stall timer, and the rest timer in COAST, from its full time (R15, R90); nothing else changes. The same
edge on a REFERENCED axis is EdgesOfReferencedAxesMoveThePosition's. -/
def Obligations.EdgesCountOnUnreferencedAxes : Prop :=
  ∀ (s : State) (a : AxisId) (l : EncoderLevels) (order : List Block),
    let x := s.axis a
    let old := x.pins.encoder
    let leads : Bool := if old.a ≠ l.a then l.a != l.b else l.a == l.b
    let up : Bool := leads == decide (x.config.countSense = .normal)
    ((old.a ≠ l.a ↔ old.b ≠ l.b) →
      exec (.countEdge a l order) s = .next (s.setAxis a { x with pins := { x.pins with encoder := l } })) ∧
    (x.counting.reference = .unreferenced → ¬ (old.a ≠ l.a ↔ old.b ≠ l.b) →
      exec (.countEdge a l order) s =
        .next (s.setAxis a { x with
          pins := { x.pins with encoder := l }
          counting :=
            { x.counting with
              raw := if up then x.counting.raw + 1 else x.counting.raw - 1
              lastDir := some (if up then .positive else .negative) }
          stall := x.stall.map (fun t => ⟨t.duration, 0⟩)
          motion :=
            match x.motion with
            | .moving o =>
              match o.substate with
              | .coast _ => .moving { o with substate := .coast ⟨x.config.restTime, 0⟩ }
              | _ => x.motion
            | _ => x.motion }))

/-- A counted edge of a REFERENCED axis (`Axis.counted`: raw count, direction, stall timer and, in COAST, rest timer, as on
an UNREFERENCED axis) whose new position is in range is a position change by one that the Axis Controller and the Window
Monitor take in the order the command gives (R6, R8, R80, R126): the approach acts by `Axis.positionMoved`, every window of
the axis is tested with all that follows by `State.windowsOf`, and an axis that is not MOVING keeps its motion, flag, lines
and lockout. The position is raw count plus base in 32 bits plus shift, reduced modulo M on a ROTARY axis; the edge moves
it by one, on a ROTARY axis modulo M, while that sum does not wrap (R8; the wrap: notes/assumptions/11.md). An edge that
would carry a REFERENCED LINEAR axis out of the position range is counted and raises OVERRANGE: the fault is recorded with
its notice, the reference is lost, the windows of the axis are UNKNOWN and the claim is sent (R10, R14, R16, R17). -/
def Obligations.EdgesOfReferencedAxesMoveThePosition : Prop :=
  (∀ (s : State) (a : AxisId) (l : EncoderLevels) (order : List Block) (leads : Bool),
    let x := s.axis a
    let d := x.config.countSense.direction leads
    let y := x.counted l d
    let u := s.setAxis a y
    let moved (v : State) : State :=
      (v.setAxis a (Axis.positionMoved a v.timebase (v.monitor.limitAgainst a) d (v.axis a)).1).offers
        (Axis.positionMoved a v.timebase (v.monitor.limitAgainst a) d (v.axis a)).2
    leadsOf x.pins.encoder l = some leads → x.counting.reference = .referenced →
    (x.config.kind = .linear → -67108863 ≤ y.formed ∧ y.formed ≤ 67108863) →
    ∃ t, exec (.countEdge a l order) s = .next t ∧
      t = (if Block.before (.axisController a) .windowMonitor order then (moved u).windowsOf a
        else moved (u.windowsOf a)) ∧
      ((∀ o, x.motion ≠ .moving o) → t = u.windowsOf a) ∧
      (t.axis a).counting = y.counting ∧ (t.axis a).position = some y.formed ∧
      t.monitor.windows = retest a y s.monitor.windows ∧ t.monitor.hostValues = s.monitor.hostValues ∧
      (t.axis a).config = x.config ∧ (t.axis a).queue = x.queue ∧ (t.axis a).log = x.log ∧
      (t.axis a).faultClaims = x.faultClaims ∧
      (∀ b, b ≠ a → (s.axis b).SameButClaims (t.axis b)) ∧ t.tables = s.tables ∧ t.link = s.link ∧
      t.timebase = s.timebase ∧ t.micros = s.micros) ∧
  (∀ x : Axis,
    let sum : Int := (x.counting.raw + x.counting.base).toInt + x.counting.shift
    x.formed = (if x.config.kind = .rotary then sum % x.config.modulus else sum)) ∧
  (∀ (x : Axis) (l : EncoderLevels) (d : Dir), x.config.kind = .linear →
    -67108863 ≤ x.formed ∧ x.formed ≤ 67108863 → -16777215 ≤ x.counting.shift ∧ x.counting.shift ≤ 16777215 →
    (x.counted l d).formed = x.formed + d.sign) ∧
  (∀ (x : Axis) (l : EncoderLevels) (d : Dir), x.config.kind = .rotary → 0 < x.config.modulus →
    -2147483648 ≤ (x.counting.raw + x.counting.base).toInt + d.sign →
    (x.counting.raw + x.counting.base).toInt + d.sign ≤ 2147483647 →
    (x.counted l d).formed = (x.formed + d.sign) % x.config.modulus) ∧
  (∀ (s : State) (a : AxisId) (l : EncoderLevels) (order : List Block) (leads : Bool),
    let x := s.axis a
    let y := x.counted l (x.config.countSense.direction leads)
    let record := Axis.recordFault a s.timebase .overrange y
    leadsOf x.pins.encoder l = some leads → x.counting.reference = .referenced → x.config.kind = .linear →
    y.formed < -67108863 ∨ 67108863 < y.formed → s.MonitorOk →
    exec (.countEdge a l order) s =
      .next ((s.lost a { y with
        counting := record.1.counting.dropped
        faultClaims := x.faultClaims ++ [.overrange] }).offers record.2))

/-- An index mark alone: without the check, or UNREFERENCED and not homing, it changes nothing; a first mark sets the
baseline; a mark that passes moves it; a mark that fails raises SLIP, with its record, its notice and its claim, and drops
the reference (R7, R13, R16). A mark with an edge of the same instant is the mark behind the counted edge (R7, R25; the
model's reading, notes/assumptions/24.md). The line check (R12): the 1 ms timer starts with the first mismatched pair and
is abandoned with the last; its expiry is the line-fault condition, which raises LINE, with its record, its notice and its
claim, only with LINE-CHECK 1, and may do so anew once all pairs were complementary. -/
def Obligations.IndexAndLineChecksRaiseFaults : Prop :=
  (∀ (s : State) (a : AxisId) (order : List Block),
    let x := s.axis a
    let n : Int := x.config.indexSpacing
    let tol : Int := x.config.indexTol
    (x.motion.isHoming = false →
      (x.config.indexSpacing = 0 ∨ x.counting.reference = .unreferenced →
        exec (.indexMark a none order) s = .next s) ∧
      (x.config.indexSpacing ≠ 0 → x.counting.reference = .referenced → x.counting.baseline = none →
        exec (.indexMark a none order) s =
          .next (s.setAxis a { x with counting := { x.counting with baseline := some x.counting.raw } })) ∧
      (∀ b, x.config.indexSpacing ≠ 0 → x.counting.reference = .referenced → x.counting.baseline = some b →
        let d : Int := (x.counting.raw - b).toInt
        let passes : Prop := (-tol ≤ d - n ∧ d - n ≤ tol) ∨ (-tol ≤ d + n ∧ d + n ≤ tol) ∨ (-tol ≤ d ∧ d ≤ tol)
        (passes →
          exec (.indexMark a none order) s =
            .next (s.setAxis a { x with counting := { x.counting with baseline := some x.counting.raw } })) ∧
        (¬ passes → s.MonitorOk →
          exec (.indexMark a none order) s =
            .next ((s.lost a { x with
              counting := (Axis.recordFault a s.timebase .slip x).1.counting.dropped
              faultClaims := x.faultClaims ++ [.slip] }).offers (Axis.recordFault a s.timebase .slip x).2)))) ∧
    (∀ l, ∃ u, exec (.countEdge a l order) s = .next u ∧
      ((u.axis a).motion.isHoming = false →
        exec (.indexMark a (some l) order) s = exec (.indexMark a none order) u))) ∧
  (∀ (s : State) (a : AxisId) (m : PairMismatch),
    let x := s.axis a
    (m = ⟨false, false, false⟩ →
      exec (.linePairChange a m) s =
        .next (s.setAxis a { x with
          pins := { x.pins with mismatch := m }
          counting := { x.counting with lineFault := false, lineRaised := false, lineTimer := none } })) ∧
    (m ≠ ⟨false, false, false⟩ → x.pins.mismatch = ⟨false, false, false⟩ →
      exec (.linePairChange a m) s =
        .next (s.setAxis a { x with
          pins := { x.pins with mismatch := m }
          counting := { x.counting with lineTimer := some ⟨1, 0⟩ } })) ∧
    (m ≠ ⟨false, false, false⟩ → x.pins.mismatch ≠ ⟨false, false, false⟩ →
      exec (.linePairChange a m) s = .next (s.setAxis a { x with pins := { x.pins with mismatch := m } })) ∧
    (∀ late t, x.counting.lineTimer = some t → s.mayRun (t.wait late) = true →
      let v := s.runTo t late
      let y := v.axis a
      (x.config.lineCheck = false →
        exec (.lineTimerExpiry a late) s =
          .next (v.setAxis a { y with counting := { y.counting with lineFault := true, lineTimer := none } })) ∧
      (x.config.lineCheck = true → s.MonitorOk →
        exec (.lineTimerExpiry a late) s =
          .next ((v.lost a { y with
            counting :=
              { (Axis.recordFault a v.timebase .line y).1.counting.dropped with
                lineFault := true, lineRaised := true, lineTimer := none }
            faultClaims := y.faultClaims ++ [.line] }).offers (Axis.recordFault a v.timebase .line y).2))))

/-! ### Reference and datum -/

/-- HOME with its checks passed starts a run: the record of table 2-2, HOMING, the reference lost and its windows UNKNOWN,
the queue, the flag and the shift kept; on a DRIVEN axis the RUN line of the wanted pattern turns on where the lockout
permits it, and the lines of a WATCHED axis stay off (R21 to R24, R30). An edge of SENSE that meets the acceptance: a
SENSE_EDGE whose order names the Link Port before the Capture Log has the waiting HOME executed on the new level, and the
Capture Log behind it passes the edge over where the axis is HOMING then, and else takes it as it takes any other (R151;
notes/assumptions/15.md). -/
def Obligations.HomeStartsARun : Prop :=
  (∀ (s : State) (r : Request) (fs : List Field) (a : AxisId), Serves s .home r fs → fieldAxis fs = a →
    let x := s.axis a
    let datum := fieldInt fs .datum
    let fits := (x.config.kind = .linear → -67108863 ≤ datum + x.counting.shift ∧ datum + x.counting.shift ≤ 67108863) ∧
      (x.config.kind = .rotary → 0 ≤ datum ∧ datum ≤ x.config.modulus - 1)
    (¬ fits → exec .home s = .next (s.answered r ⟨.badValue, [(.detail, 67)], [], []⟩)) ∧
    (fits → x.motion = .faulted → exec .home s = .next (s.answered r ⟨.faulted, [], [], []⟩)) ∧
    (fits → x.motion.inMotion = true → exec .home s = .next (s.answered r ⟨.wrongState, [], [], []⟩)) ∧
    (fits → x.motion = .idle ∨ x.motion = .held ∨ x.motion = .waiting → s.monitor.guarded a = true →
      exec .home s = .next (s.answered r ⟨.guarded, [], [], []⟩)) ∧
    (fits → x.motion = .idle ∨ x.motion = .held ∨ x.motion = .waiting → s.monitor.guarded a = false →
      s.MonitorOk → x.LinesOk →
      let active : Bool := x.pins.sense == decide (x.config.senseLevel = .activeHigh)
      let method := Method.ofCode (fieldInt fs .method)
      let h : Homing :=
        { method := method
          seekDir := if method = .indexOnly then none else some (Dir.ofCode (fieldInt fs .seekDir))
          qualify := Dir.ofCode (fieldInt fs .qualifyDir)
          datum := datum
          fast := fieldInt fs .fast == 1
          substate := if method = .indexOnly then .awaitIndex else if active then .onSwitch else .seek
          limit := ⟨(fieldInt fs .timeLimit).toNat * 1000, 0⟩ }
      let runs : Prop := x.config.role = .driven ∧ x.permits h.wanted.1 = true
      exec .home s =
        .next ((s.lost a { x with
          motion := .homing h
          lines := if runs then .run h.wanted.1 h.wanted.2 else .off
          stall := if runs ∧ x.config.stallTime ≠ 0 then some ⟨x.config.stallTime, 0⟩ else none
          counting := x.counting.dropped }).answered r ⟨.ok, [(.substate, h.substate.code)], [], []⟩))) ∧
  (∀ (s : State) (a : AxisId) (high : Bool) (order : List Block), (s.axis a).motion.isHoming = false →
    (s.axis a).pins.sense ≠ high → Block.before .linkPort .captureLog order = true →
    let level (u : State) (sense : Bool) : State :=
      u.setAxis a { u.axis a with pins := { (u.axis a).pins with sense := sense } }
    ∃ u, exec .home (level s high) = .next u ∧
      ((u.axis a).motion.isHoming = true → exec (.senseEdge a high order) s = .next u) ∧
      ((u.axis a).motion.isHoming = false →
        exec (.senseEdge a high order) s = exec (.senseEdge a high []) (level u (!high))))

/-- The wanted pattern of a homing substate, and how the lines are brought to it (R24). SENSE edges and index marks move a
homing run as table 2-3 says, the lines with it (R25 to R29); no edge of a run that goes on is captured (R149). What ends
it (R31): the reference at the present raw count at once; then, in the order the command gives, HOMED with the lines off and
IDLE, or HELD with the flag 1; the windows tested with all that follows (`State.windowsOf`); the Capture Log, which records
the edge of a SWITCH-EDGE run only behind the end of the run (R151); and the start of the head order where the command
names it, which meets the guards of that moment (R31, R135; the model's reading, notes/assumptions/28.md). A mark with an
edge of the same instant has the raw count behind the edge and the direction before it (R7, R25; notes/assumptions/24.md).
The homing limit's expiry fails the run TIMEOUT: lines off, HELD, queue kept (R32). -/
def Obligations.HomingRunsFollowTheirTable : Prop :=
  (∀ h : Homing,
    (∀ d, h.substate = .seek → h.seekDir = some d → h.wanted = (d, h.fast)) ∧
    (h.substate = .onSwitch → h.wanted = (h.qualify, false)) ∧ (h.substate = .awaitIndex → h.wanted = (h.qualify, false))) ∧
  (∀ (x : Axis) (now : Time) (h : Homing),
    let d := h.wanted.1
    let high := h.wanted.2
    let brought := Axis.bringLines now h x
    (x.config.role = .watched → brought = x) ∧
    (x.config.role = .driven →
      (∀ e, x.lines = .run d e → brought = { x with lines := .run d high }) ∧
      (∀ e, x.lines = .run d.opposite e →
        brought =
          { x with
            lines := .off, stall := none
            lockout := some ⟨d.opposite, now, some ⟨x.config.reversalGap, 0⟩, 0⟩ }) ∧
      (x.lines = .off → x.permits d = true →
        brought =
          { x with
            lines := .run d high
            stall := if x.config.stallTime = 0 then none else some ⟨x.config.stallTime, 0⟩ }) ∧
      (x.lines = .off → x.permits d = false → brought = x))) ∧
  (∀ (s : State) (a : AxisId) (h : Homing) (order : List Block), (s.axis a).motion = .homing h →
    let x := s.axis a
    let toggled : Axis := { x with pins := { x.pins with sense := !x.pins.sense } }
    let sense (active : Bool) : Instr := .senseEdge a (active == decide (x.config.senseLevel = .activeHigh)) order
    let runs (active : Bool) (sub : HomingSubstate) (seek : Option Dir) : Prop :=
      exec (sense active) s =
        .next (s.setAxis a (Axis.bringLines s.timebase { h with substate := sub, seekDir := seek }
          { toggled with motion := .homing { h with substate := sub, seekDir := seek } }))
    let position : Int :=
      if x.config.kind = .rotary then (h.datum + x.counting.shift) % x.config.modulus else h.datum + x.counting.shift
    let gained (u : State) (mark : Bool) : State :=
      u.setAxis a { u.axis a with
        counting :=
          { (u.axis a).counting with
            base := BitVec.ofInt 32 h.datum - (u.axis a).counting.raw
            reference := .referenced
            baseline :=
              if mark = true ∧ x.config.indexSpacing ≠ 0 then some (u.axis a).counting.raw else none } }
    let act (t : State) (b : Block) : State :=
      let y := t.axis a
      match b with
      | .axisController _ =>
        (t.setAxis a { y.turnOff t.timebase with
          stall := none
          motion := if y.holdPending then .held else .idle
          holdPending := false }).offers [.homed a position]
      | .windowMonitor => t.windowsOf a
      | .captureLog =>
        if y.motion.isHoming = false ∧ (y.log.mode = .fall ∨ y.log.mode = .both) then
          (t.setAxis a { y with
            log :=
              { y.log with
                ring :=
                  (if y.log.ring.length < 8 then y.log.ring else y.log.ring.tail) ++
                    [{ number := y.log.nextNumber
                       edge := .fall
                       raw := y.counting.raw
                       position := y.position
                       time := t.timebase
                       orderTag := y.motion.active.map (fun o => o.order.tag)
                       overwrote := decide (8 ≤ y.log.ring.length) }]
                nextNumber := if 65535 ≤ y.log.nextNumber then 1 else y.log.nextNumber + 1 } }).offers
            (if y.log.ring = [] then [.captureWaiting a] else [])
        else t
      | .orderStart _ => t.startHead a
      | .linkPort => t
    let parties (mark : Bool) : List Block :=
      (order.filter (fun b => decide (b = .axisController a ∨ b = .windowMonitor ∨ b = .orderStart a ∨
        b = .captureLog ∧ mark = false))).eraseDups ++
      (([.axisController a, .windowMonitor] : List Block) ++ if mark then [] else [Block.captureLog]).filter
        (fun b => !order.contains b)
    let ends (i : Instr) (u : State) (mark : Bool) : Prop :=
      ∃ t, exec i s = .next t ∧ t = (parties mark).foldl act (gained u mark) ∧
        (t.axis a).counting = ((gained u mark).axis a).counting ∧
        t.monitor.windows = retest a ((gained u mark).axis a) u.monitor.windows ∧
        (.orderStart a ∉ order →
          (t.axis a).motion = (if x.holdPending then .held else .idle) ∧ (t.axis a).holdPending = false ∧
          (t.axis a).lines = .off ∧ (t.axis a).queue = x.queue) ∧
        (∀ b, b ≠ a → (u.axis b).SameButClaims (t.axis b)) ∧ t.tables = s.tables ∧ t.link = s.link ∧
        t.timebase = s.timebase ∧ t.micros = s.micros ∧
        ∃ bodies, NoticeBody.homed a position ∈ bodies ∧ t.notices = (u.offers bodies).notices
    let moves := x.counting.lastDir = some h.qualify
    (exec (.senseEdge a x.pins.sense order) s = .next s) ∧
    (x.senseActive = false →
      (h.substate = .seek → runs true .onSwitch h.seekDir) ∧
      (h.substate = .onSwitch → runs true .onSwitch h.seekDir) ∧
      (h.substate = .awaitIndex → h.method = .switchIndex → runs true .onSwitch h.seekDir) ∧
      (h.substate = .awaitIndex → h.method ≠ .switchIndex → runs true .awaitIndex h.seekDir)) ∧
    (x.senseActive = true →
      (h.substate = .seek → runs false .seek h.seekDir) ∧
      (h.substate = .onSwitch → moves → h.method = .switchEdge → ends (sense false) (s.setAxis a toggled) false) ∧
      (h.substate = .onSwitch → moves → h.method ≠ .switchEdge → runs false .awaitIndex h.seekDir) ∧
      (h.substate = .onSwitch → ¬ moves → runs false .seek (some h.qualify)) ∧
      (h.substate = .awaitIndex → runs false .awaitIndex h.seekDir)) ∧
    (x.counting.reference = .unreferenced →
      (h.substate = .awaitIndex → moves → ends (.indexMark a none order) s true) ∧
      (h.substate ≠ .awaitIndex ∨ ¬ moves → exec (.indexMark a none order) s = .next s) ∧
      ∀ l, ∃ u, exec (.countEdge a l order) s = .next u ∧
        (h.substate = .awaitIndex → moves → ends (.indexMark a (some l) order) u true) ∧
        (h.substate ≠ .awaitIndex ∨ ¬ moves → exec (.indexMark a (some l) order) s = .next u)) ∧
    (∀ t, exec (.orderStart a) t = .next (t.startHead a))) ∧
  (∀ (s : State) (a : AxisId) (h : Homing) (late : Nat), (s.axis a).motion = .homing h →
    s.mayRun (h.limit.wait late) = true →
    let v := s.runTo h.limit late
    exec (.homingLimitExpiry a late) s =
      .next ((v.setAxis a { (v.axis a).turnOff v.timebase with
        stall := none, motion := .held, holdPending := false }).offers [.homeFailed a .timeout]))

/-- TEACH with its checks passed makes the present position DATUM plus the shift, on a ROTARY axis modulo M, the axis
REFERENCED, and every window of the axis tested there with all that follows, `State.windowsOf` (R9, R36, R37, R126). SHIFT
with its checks passed stores the new shift and moves the position of a REFERENCED axis by the change in one step, its
windows tested there likewise, raw count and base kept; on an UNREFERENCED axis, and with the shift unchanged, the stored
value alone changes (R38, R39). -/
def Obligations.TeachAndShiftSetThePosition : Prop :=
  (∀ (s : State) (r : Request) (fs : List Field) (a : AxisId), Serves s .teach r fs → fieldAxis fs = a →
    let x := s.axis a
    let datum := fieldInt fs .datum
    let fits := (x.config.kind = .linear → -67108863 ≤ datum + x.counting.shift ∧ datum + x.counting.shift ≤ 67108863) ∧
      (x.config.kind = .rotary → 0 ≤ datum ∧ datum ≤ x.config.modulus - 1)
    let p : Int := if x.config.kind = .rotary then (datum + x.counting.shift) % x.config.modulus else datum + x.counting.shift
    let y : Axis :=
      { x with
        counting :=
          { x.counting with
            base := BitVec.ofInt 32 datum - x.counting.raw, reference := .referenced, baseline := none } }
    (¬ fits → exec .teach s = .next (s.answered r ⟨.badValue, [(.detail, 67)], [], []⟩)) ∧
    (fits → x.motion = .faulted → exec .teach s = .next (s.answered r ⟨.faulted, [], [], []⟩)) ∧
    (fits → x.motion.inMotion = true → exec .teach s = .next (s.answered r ⟨.wrongState, [], [], []⟩)) ∧
    (fits → x.motion = .idle ∨ x.motion = .held ∨ x.motion = .waiting →
      exec .teach s = .next (((s.setAxis a y).windowsOf a).answered r ⟨.ok, [(.position, p)], [], []⟩) ∧
      y.position = some p ∧
      ((s.setAxis a y).windowsOf a).monitor.windows =
        s.monitor.windows.map (fun e =>
          if e.2.axis = a then
            (e.1, { e.2 with occupancy := if e.2.contains x.config.kind p then .occupied else .vacant })
          else e))) ∧
  (∀ (s : State) (r : Request) (fs : List Field) (a : AxisId) (v : Int), Serves s .shift r fs → fieldAxis fs = a →
    let x := s.axis a
    v = (if fieldInt fs .shiftMode = 0 then fieldInt fs .shift else x.counting.shift + fieldInt fs .shift) →
    let fits := -16777215 ≤ v ∧ v ≤ 16777215 ∧
      (x.config.kind = .linear → ∀ p, x.position = some p →
        -67108863 ≤ p + (v - x.counting.shift) ∧ p + (v - x.counting.shift) ≤ 67108863)
    let y : Axis := { x with counting := { x.counting with shift := v } }
    (¬ fits → exec .shift s = .next (s.answered r ⟨.badValue, [(.detail, 57)], [], []⟩)) ∧
    (fits → x.motion.inMotion = true → exec .shift s = .next (s.answered r ⟨.wrongState, [], [], []⟩)) ∧
    (fits → x.motion.inMotion = false →
      (x.counting.reference = .unreferenced →
        exec .shift s = .next ((s.setAxis a y).answered r ⟨.ok, [(.shift, v)], [], []⟩)) ∧
      ∀ p q, x.position = some p →
        q = (if x.config.kind = .rotary then (p + (v - x.counting.shift)) % x.config.modulus
          else p + (v - x.counting.shift)) →
        y.position = some q ∧
        (v = x.counting.shift → exec .shift s = .next (s.answered r ⟨.ok, [(.position, q), (.shift, v)], [], []⟩)) ∧
        (v ≠ x.counting.shift →
          exec .shift s =
            .next (((s.setAxis a y).windowsOf a).answered r ⟨.ok, [(.position, q), (.shift, v)], [], []⟩) ∧
          ((s.setAxis a y).windowsOf a).monitor.windows =
            s.monitor.windows.map (fun e =>
              if e.2.axis = a then
                (e.1, { e.2 with occupancy := if e.2.contains x.config.kind q then .occupied else .vacant })
              else e))))

/-! ### Stations and profiles -/

/-- PUT-STATION writes the record whole, in a full pool only over an existing one, and only with a DEFINED profile;
DROP-STATION removes it whatever the queues hold; both report the free count (R43 to R45). -/
def Obligations.StationsAreWrittenAndDropped : Prop :=
  ∀ (s : State) (r : Request) (fs : List Field),
    let k := stationKey (fieldAxis fs) (fieldNat fs .station)
    let ss := s.tables.stations
    let st : Station := ⟨fieldInt fs .position, fieldNat fs .profile, (fieldValue fs .settle).map Int.toNat⟩
    (Serves s .putStation r fs →
      (Table.find (fieldNat fs .profile) s.tables.profiles = none →
        exec .putStation s = .next (s.answered r ⟨.noSuch, [(.detail, 81)], [], []⟩)) ∧
      (Table.find (fieldNat fs .profile) s.tables.profiles ≠ none → Table.find k ss = none → 384 ≤ ss.length →
        exec .putStation s = .next (s.answered r ⟨.full, [], [], []⟩)) ∧
      (Table.find (fieldNat fs .profile) s.tables.profiles ≠ none → Table.find k ss ≠ none ∨ ss.length < 384 →
        ∃ t, exec .putStation s =
            .next ({ s with tables := { s.tables with stations := t } }.answered r
              ⟨.ok, [(.created, if Table.find k ss = none then 1 else 0), (.free, 384 - t.length)], [], []⟩) ∧
          Table.find k t = some st ∧ ∀ j, j ≠ k → Table.find j t = Table.find j ss)) ∧
    (Serves s .dropStation r fs →
      (Table.find k ss = none → exec .dropStation s = .next (s.answered r ⟨.noSuch, [], [], []⟩)) ∧
      (Table.find k ss ≠ none →
        ∃ t, exec .dropStation s =
            .next ({ s with tables := { s.tables with stations := t } }.answered r
              ⟨.ok, [(.free, 384 - t.length)], [], []⟩) ∧
          Table.find k t = none ∧ ∀ j, j ≠ k → Table.find j t = Table.find j ss))

/-- GET-STATION reports one record, SETTLE when it has an override, whatever the modulus of the axis, and changes
nothing but its own answer (R46). GET-PROFILE reports the entry of the table, not the snapshot of a running order, and
changes nothing but its own answer (R51). -/
def Obligations.GetStationAndGetProfileReport : Prop :=
  (∀ (s : State) (r : Request) (fs : List Field), Serves s .getStation r fs →
    let found := Table.find (stationKey (fieldAxis fs) (fieldNat fs .station)) s.tables.stations
    (found = none → exec .getStation s = .next (s.answered r ⟨.noSuch, [], [], []⟩)) ∧
    (∀ st, found = some st → st.settle = none →
      exec .getStation s =
        .next (s.answered r
          ⟨.ok, [(.axis, fieldInt fs .axis), (.station, fieldInt fs .station), (.position, st.position),
            (.profile, st.profile)], [], []⟩)) ∧
    (∀ st n, found = some st → st.settle = some n →
      exec .getStation s =
        .next (s.answered r
          ⟨.ok, [(.axis, fieldInt fs .axis), (.station, fieldInt fs .station), (.position, st.position),
            (.profile, st.profile), (.settle, n)], [], []⟩)) ∧
    0 ≤ fieldInt fs .axis ∧ fieldInt fs .axis ≤ 3 ∧ 1 ≤ fieldInt fs .station ∧ fieldInt fs .station ≤ 999) ∧
  (∀ (s : State) (r : Request) (fs : List Field), Serves s .getProfile r fs →
    let found := Table.find (fieldNat fs .profile) s.tables.profiles
    (found = none → exec .getProfile s = .next (s.answered r ⟨.noSuch, [], [], []⟩)) ∧
    (∀ p, found = some p →
      exec .getProfile s =
        .next (s.answered r
          ⟨.ok, [(.profile, fieldInt fs .profile), (.timeLimit, p.timeLimit), (.settle, p.settle), (.slowDist, p.slow),
            (.cutDist, p.cut), (.windowDist, p.window), (.approach, p.approach.code), (.takeupDist, p.takeup),
            (.corrections, p.corrections)], [], []⟩)) ∧
    0 ≤ fieldInt fs .profile ∧ fieldInt fs .profile ≤ 15)

/-- LIST-STATIONS reports the records of one axis from FIRST on, in their order, at most 12 in a reply and as many as
fit a body of 200 bytes, with NEXT when one is left (R47, R197). The room kept for NEXT is the model's reading,
notes/assumptions/16.md. LIST-ORDERS reports MOTION, HOLD-PENDING and the orders behind SKIP, oldest first, the active
one with the values it runs with, DIRECTION that of its present or most recent leg and NONE before the first (R79), as many
as fit, with MORE when some are left; it changes nothing but its own answer (R78, R79, R197). -/
def Obligations.ListRepliesArePaged : Prop :=
  (∀ (s : State) (r : Request) (fs : List Field) (a : AxisId), Serves s .listStations r fs → fieldAxis fs = a →
    let first := (fieldValue fs .first).elim 1 Int.toNat
    let mine := (s.tables.stations.filter (fun e => decide (e.1 / 1000 = a.num) && decide (first ≤ e.1 % 1000))).map
      (fun e => (e.1 % 1000, e.2))
    let group (e : Nat × Station) : List Field :=
      [(.station, (e.1 : Int)), (.position, e.2.position), (.profile, (e.2.profile : Int))] ++
        (match e.2.settle with
          | none => []
          | some n => [(.settle, (n : Int))])
    let body (n : Nat) : Nat := 3 + ((mine.take n).map (fun e => groupSize (group e))).sum + (if n < mine.length then 4 else 0)
    ∃ n, n ≤ 12 ∧ n ≤ mine.length ∧ body n ≤ 200 ∧ (n < 12 → n < mine.length → 200 < body (n + 1)) ∧
      exec .listStations s =
        .next (s.answered r
          ⟨.ok, [], (mine.take n).map group,
            match mine[n]? with
            | none => []
            | some e => [(.next, (e.1 : Int))]⟩)) ∧
  (∀ (s : State) (r : Request) (fs : List Field) (a : AxisId), Serves s .listOrders r fs → fieldAxis fs = a →
    let x := s.axis a
    let order (o : Order) : List Field :=
      [(.orderTag, (o.tag : Int))] ++
      (match o.destination with
        | .station n none => [(.station, (n : Int))]
        | .station n (some p) => [(.station, (n : Int)), (.profile, (p : Int))]
        | .target t p => [(.target, t), (.profile, (p : Int))]) ++
      (match o.settle with
        | none => []
        | some n => [(.settle, (n : Int))]) ++ [(.chain, (o.chain.code : Int)), (.notify, if o.notify then 1 else 0)]
    let running (o : ActiveOrder) : List Field :=
      [(.active, 1), (.resolvedTarget, o.target), (.resolvedProfile, o.profileNo), (.slowDist, o.snapshot.slow),
        (.cutDist, o.snapshot.cut), (.windowDist, o.snapshot.window), (.approach, o.snapshot.approach.code),
        (.takeupDist, o.snapshot.takeup), (.corrections, o.snapshot.corrections), (.timeLimit, o.snapshot.timeLimit),
        (.resolvedSettle, o.settle),
        (.direction, match o.leg with
          | none => 0
          | some d => (d.code : Int)),
        (.takeup, if o.takeup then 1 else 0), (.correctionsUsed, o.corrections)]
    let all : List (List Field) :=
      match x.motion with
      | .moving o => (order o.order ++ running o) :: x.queue.map order
      | _ => x.queue.map order
    let groups := all.drop (fieldNat fs .skip)
    ∃ n, n ≤ groups.length ∧
      exec .listOrders s =
        .next (s.answered r
          ⟨.ok, [(.motion, x.motion.code), (.holdPending, if x.holdPending then 1 else 0)], groups.take n,
            if n < groups.length then [(.more, (groups.length : Int) - n)] else []⟩) ∧
      9 + ((groups.take n).map groupSize).sum + (if n < groups.length then 3 else 0) ≤ 200 ∧
      (n < groups.length →
        200 < 9 + ((groups.take (n + 1)).map groupSize).sum + (if n + 1 < groups.length then 3 else 0)))

/-- PUT-PROFILE defines an entry whole unless S is not 0 and less than C; DROP-PROFILE makes it UNDEFINED unless a station
or an order that has not started names it (R49, R50). -/
def Obligations.ProfilesAreWrittenAndDropped : Prop :=
  ∀ (s : State) (r : Request) (fs : List Field),
    let n := fieldNat fs .profile
    let ps := s.tables.profiles
    let p : Profile :=
      { slow := fieldNat fs .slowDist
        cut := fieldNat fs .cutDist
        window := fieldNat fs .windowDist
        approach := Approach.ofCode (fieldInt fs .approach)
        takeup := fieldNat fs .takeupDist
        settle := fieldNat fs .settle
        corrections := fieldNat fs .corrections
        timeLimit := fieldNat fs .timeLimit }
    let awaited := ∃ a o, o ∈ (s.axis a).queue ∧
      ((∃ st, o.destination = .station st (some n)) ∨ ∃ t, o.destination = .target t n)
    (Serves s .putProfile r fs →
      (p.slow ≠ 0 → p.slow < p.cut →
        exec .putProfile s = .next (s.answered r ⟨.badValue, [(.detail, 88)], [], []⟩)) ∧
      (p.slow = 0 ∨ p.cut ≤ p.slow →
        ∃ t, exec .putProfile s =
            .next ({ s with tables := { s.tables with profiles := t } }.answered r
              ⟨.ok, [(.created, if Table.find n ps = none then 1 else 0)], [], []⟩) ∧
          Table.find n t = some p ∧ ∀ j, j ≠ n → Table.find j t = Table.find j ps)) ∧
    (Serves s .dropProfile r fs →
      (Table.find n ps = none → exec .dropProfile s = .next (s.answered r ⟨.noSuch, [], [], []⟩)) ∧
      (Table.find n ps ≠ none → (∃ e ∈ s.tables.stations, e.2.profile = n) ∨ awaited →
        exec .dropProfile s = .next (s.answered r ⟨.inUse, [], [], []⟩)) ∧
      (Table.find n ps ≠ none → (∀ e ∈ s.tables.stations, e.2.profile ≠ n) → ¬ awaited →
        ∃ t, exec .dropProfile s =
            .next ({ s with tables := { s.tables with profiles := t } }.answered r ⟨.ok, [], [], []⟩) ∧
          Table.find n t = none ∧ ∀ j, j ≠ n → Table.find j t = Table.find j ps))

/-! ### The move queue -/

/-- ENQUEUE with its six checks passed appends the order of the request, with its defaults, behind the others; each failed
check answers by R60 and changes nothing (R59 to R61, R52). -/
def Obligations.EnqueueAppendsTheOrder : Prop :=
  ∀ (s : State) (r : Request) (fs : List Field) (a : AxisId), Serves s .enqueue r fs → fieldAxis fs = a →
    let x := s.axis a
    let o : Order :=
      { tag := fieldNat fs .orderTag
        destination :=
          match fieldValue fs .station with
          | some n => .station n.toNat ((fieldValue fs .profile).map Int.toNat)
          | none => .target (fieldInt fs .target) (fieldNat fs .profile)
        settle := (fieldValue fs .settle).map Int.toNat
        chain := if fieldInt fs .chain = 0 then .continue_ else .pause
        notify := fieldInt fs .notify == 1 }
    let found (n : Nat) := Table.find (stationKey a n) s.tables.stations
    let used : Option Nat :=
      match o.destination with
      | .target _ n => some n
      | .station n own => (found n).map (fun st => own.getD st.profile)
    let refused (ans : Answer) := exec .enqueue s = .next (s.answered r ans)
    (x.config.role = .watched → refused ⟨.wrongState, [], [], []⟩) ∧
    (x.config.role = .driven → 8 ≤ x.moveQueue.length → refused ⟨.full, [], [], []⟩) ∧
    (x.config.role = .driven → x.moveQueue.length < 8 → (∃ e ∈ x.moveQueue, e.tag = o.tag) →
      refused ⟨.exists_, [(.detail, 96)], [], []⟩) ∧
    (x.config.role = .driven → x.moveQueue.length < 8 → (∀ e ∈ x.moveQueue, e.tag ≠ o.tag) →
      (used = none → refused ⟨.noSuch, [(.detail, 80)], [], []⟩) ∧
      ∀ n, used = some n →
        (Table.find n s.tables.profiles = none → refused ⟨.noSuch, [(.detail, 81)], [], []⟩) ∧
        (Table.find n s.tables.profiles ≠ none →
          (x.counting.reference = .unreferenced → x.motion.isHoming = false →
            refused ⟨.notReferenced, [], [], []⟩) ∧
          (x.counting.reference = .referenced ∨ x.motion.isHoming = true →
            exec .enqueue s =
              .next ((s.setAxis a { x with queue := x.queue ++ [o] }).answered r
                ⟨.ok, [(.queueLength, x.moveQueue.length + 1)], [], []⟩))))

/-- CANCEL of an order that has not started takes it from the queue with one ORDER-DONE; of the active order it ends it
CANCELLED; an absent tag is NO-SUCH; ALL ends the active order first and then the others, oldest first (R72, R73). -/
def Obligations.CancelRemovesOrders : Prop :=
  ∀ (s : State) (r : Request) (fs : List Field) (a : AxisId), Serves s .cancel r fs → fieldAxis fs = a →
    let x := s.axis a
    let tag := fieldNat fs .orderTag
    let done (o : Order) : NoticeBody := .orderDone a o.tag .cancelled x.position 0
    let ended : Axis :=
      { x.turnOff s.timebase with stall := none, motion := .held, holdPending := false }
    (carries fs .all = false → (∀ o ∈ x.moveQueue, o.tag ≠ tag) →
      exec .cancel s = .next (s.answered r ⟨.noSuch, [], [], []⟩)) ∧
    (∀ o, carries fs .all = false → x.motion = .moving o → o.order.tag = tag → (∀ e ∈ x.queue, e.tag ≠ tag) →
      exec .cancel s =
        .next (((s.setAxis a ended).offers [.orderDone a tag .cancelled x.position o.corrections]).answered r
          ⟨.ok, [(.removed, 1)], [], []⟩)) ∧
    (∀ before o after, carries fs .all = false → x.queue = before ++ o :: after → o.tag = tag →
      (∀ e ∈ before ++ after, e.tag ≠ tag) → (∀ p, x.motion = .moving p → p.order.tag ≠ tag) →
      exec .cancel s =
        .next (((s.setAxis a { x with
            queue := before ++ after
            motion := if x.motion = .waiting ∧ before ++ after = [] then .idle else x.motion }).offers
          [done o]).answered r ⟨.ok, [(.removed, 1)], [], []⟩)) ∧
    (∀ o, carries fs .all = true → x.motion = .moving o →
      exec .cancel s =
        .next (((s.setAxis a { ended with queue := [] }).offers
          (.orderDone a o.order.tag .cancelled x.position o.corrections :: x.queue.map done)).answered r
            ⟨.ok, [(.removed, x.queue.length + 1)], [], []⟩)) ∧
    (carries fs .all = true → (∀ o, x.motion ≠ .moving o) →
      exec .cancel s =
        .next (((s.setAxis a { x with queue := [], motion := if x.motion = .waiting then .idle else x.motion }).offers
          (x.queue.map done)).answered r ⟨.ok, [(.removed, x.queue.length)], [], []⟩))

/-- HOLD and RELEASE act by motion state: HOLD makes IDLE and WAITING HELD, flags MOVING and HOMING, is refused in
JOGGING and FAULTED; RELEASE makes HELD IDLE and always clears the flag (R74, R75). STOP ends whatever the axis does
with STOPPED, leaves it HELD with its flag 0 (FAULTED stays FAULTED), and with FLUSH 1 removes every order that has
not started, oldest first, behind that (R76). -/
def Obligations.HoldReleaseAndStopActByState : Prop :=
  (∀ (s : State) (r : Request) (fs : List Field) (a : AxisId), fieldAxis fs = a →
    let x := s.axis a
    (Serves s .hold r fs →
      (x.motion = .idle ∨ x.motion = .waiting →
        exec .hold s =
          .next ((s.setAxis a { x with motion := .held, holdPending := false }).answered r
            ⟨.ok, [(.motion, 1), (.holdPending, 0)], [], []⟩)) ∧
      ((∃ o, x.motion = .moving o) ∨ (∃ h, x.motion = .homing h) →
        exec .hold s =
          .next ((s.setAxis a { x with holdPending := true }).answered r
            ⟨.ok, [(.motion, x.motion.code), (.holdPending, 1)], [], []⟩)) ∧
      (x.motion = .held →
        exec .hold s =
          .next (s.answered r ⟨.ok, [(.motion, 1), (.holdPending, if x.holdPending then 1 else 0)], [], []⟩)) ∧
      ((∃ j, x.motion = .jogging j) ∨ x.motion = .faulted →
        exec .hold s = .next (s.answered r ⟨.wrongState, [], [], []⟩))) ∧
    (Serves s .release r fs →
      (x.motion = .held →
        exec .release s =
          .next ((s.setAxis a { x with motion := .idle, holdPending := false }).answered r
            ⟨.ok, [(.motion, 0)], [], []⟩)) ∧
      (x.motion ≠ .held →
        exec .release s =
          .next ((s.setAxis a { x with holdPending := false }).answered r
            ⟨.ok, [(.motion, x.motion.code)], [], []⟩)))) ∧
  (∀ (s : State) (r : Request) (fs : List Field) (a : AxisId), Serves s .stop r fs → fieldAxis fs = a →
    let x := s.axis a
    let flush : Bool := fieldInt fs .flush == 1
    let left : List Order := if flush then [] else x.queue
    let flushed : List NoticeBody :=
      if flush then x.queue.map (fun o => .orderDone a o.tag .cancelled x.position 0) else []
    let ans (m : Nat) : Answer := ⟨.ok, [(.motion, m), (.removed, if flush then (x.queue.length : Int) else 0)], [], []⟩
    let off : Axis :=
      { x.turnOff s.timebase with stall := none, motion := .held, holdPending := false, queue := left }
    (∀ o, x.motion = .moving o →
      exec .stop s =
        .next (((s.setAxis a off).offers
          (.orderDone a o.order.tag .stopped x.position o.corrections :: flushed)).answered r (ans 1))) ∧
    (∀ h, x.motion = .homing h →
      exec .stop s = .next (((s.setAxis a off).offers (.homeFailed a .stopped :: flushed)).answered r (ans 1))) ∧
    (∀ j, x.motion = .jogging j →
      exec .stop s = .next (((s.setAxis a off).offers (.jogEnded a .stopped :: flushed)).answered r (ans 1))) ∧
    (x.motion = .idle ∨ x.motion = .waiting ∨ x.motion = .held →
      exec .stop s =
        .next (((s.setAxis a { x with motion := .held, holdPending := false, queue := left }).offers
          flushed).answered r (ans 1))) ∧
    (x.motion = .faulted →
      exec .stop s =
        .next (((s.setAxis a { x with holdPending := false, queue := left }).offers flushed).answered r (ans 6))))

/-! ### Starts, legs and ends of orders -/

/-- A start of the head of an IDLE axis: a TRIPPED guard makes it WAITING; failed checks end the head with the reason of
R63 and leave the axis HELD with the rest of the queue; with the checks passed the order is active with the values
resolved now, ORDER-STARTED and the zone of its first leg are offered with NOTIFY 1, and its first leg begins where the
lockout permits it (R53, R54, R62 to R68, R83, R84, R97). -/
def Obligations.StartsTakeTheHead : Prop :=
  ∀ (s : State) (a : AxisId) (o : Order) (rest : List Order), (s.axis a).motion = .idle → (s.axis a).queue = o :: rest →
    let x := s.axis a
    let c := x.config
    let fails (why : Reason) : Prop :=
      exec (.orderStart a) s =
        .next ((s.setAxis a { x with queue := rest, motion := .held, holdPending := false }).offers
          [.orderDone a o.tag why x.position 0])
    (s.monitor.guarded a = true → exec (.orderStart a) s = .next (s.setAxis a { x with motion := .waiting })) ∧
    (s.monitor.guarded a = false → x.counting.reference = .unreferenced → fails .unreferenced) ∧
    (s.monitor.guarded a = false → x.counting.reference = .referenced →
      (∀ n own, o.destination = .station n own → Table.find (stationKey a n) s.tables.stations = none →
        fails .stationGone) ∧
      ∀ target number station pr,
        ((∃ n own st, o.destination = .station n own ∧ Table.find (stationKey a n) s.tables.stations = some st ∧
            target = st.position ∧ number = own.getD st.profile ∧ station = st.settle) ∨
          (o.destination = .target target number ∧ station = none)) →
        Table.find number s.tables.profiles = some pr →
        let settle := (o.settle.or station).getD pr.settle
        let inRange : Prop :=
          (c.kind = .rotary → 0 ≤ target ∧ target ≤ c.modulus - 1) ∧
          (c.kind = .linear → -67108863 ≤ target ∧ target ≤ 67108863 ∧
            (pr.approach = .fromBelow → -67108863 ≤ target - pr.takeup) ∧
            (pr.approach = .fromAbove → target + pr.takeup ≤ 67108863))
        let aim := c.aim pr x.formed target
        let leg := planLeg c.kind pr 0 aim
        let limited : Prop := ∃ d h sub, leg = .run d h sub ∧ s.monitor.limitAgainst a d = true
        let conflict : Prop := c.kind = .rotary ∧
          (pr.approach = .fromBelow ∧ c.rotPolicy = .reverse ∨ pr.approach = .fromAbove ∧ c.rotPolicy = .forward)
        (¬ inRange → fails .outOfRange) ∧
        (inRange → limited → fails .limited) ∧
        (inRange → ¬ limited → conflict → fails .conflict) ∧
        (inRange → ¬ limited → ¬ conflict →
          let begins : Bool :=
            match leg with
            | .settle => false
            | .run d _ _ => x.permits d
          let zones : List Zone :=
            if o.notify then
              match leg with
              | .settle => [.windowEntered]
              | .run _ _ (.slow _) => if begins then [.slowEntered] else []
              | _ => []
            else []
          let p : ActiveOrder :=
            { order := o
              target := target
              profileNo := number
              snapshot := pr
              settle := settle
              takeup :=
                match leg with
                | .run _ _ .takeup => true
                | _ => false
              corrections := 0
              zones := zones
              moveLimit := if pr.timeLimit = 0 then none else some ⟨pr.timeLimit * 1000, 0⟩
              substate :=
                match leg with
                | .settle => .settle ⟨settle, 0⟩
                | .run d _ sub => if begins then sub else .reversing d
              dir := aim.dir
              dist := aim.dist
              leg := if begins then some aim.dir else none }
          let started : List NoticeBody :=
            if o.notify then
              [.orderStarted a o.tag target (if leg = .settle then none else some aim.dir) p.takeup]
            else []
          exec (.orderStart a) s =
            .next ((s.setAxis a { x with
              queue := rest
              motion := .moving p
              lines :=
                match leg with
                | .settle => x.lines
                | .run d h _ => if begins then .run d h else x.lines
              stall :=
                if begins then
                  (if x.config.role = .driven ∧ x.config.stallTime ≠ 0 then some ⟨x.config.stallTime, 0⟩ else none)
                else x.stall }).offers (started ++ zones.map (.zone a o.tag)))))

/-- Direction, distance and kind of leg at a leg start on a LINEAR axis (R81, R83, R84), and on a ROTARY axis from the
forward and the reverse distance, where no leg is a take-up (R82 to R84). That a leg behind a
take-up which ends within C of the target is SHORT, by step 4 of R83 and against its last sentence, is the model's choice,
notes/assumptions/29.md. What the leg start does (R83, R84, R85, R97): it
enters SETTLE, ends the order LIMITED, waits on the lockout in REVERSING with no leg begun, or turns the lines on, with
which the leg has begun in the approach direction; with NOTIFY 1 it reports SLOW-ENTERED or WINDOW-ENTERED where the order
has not reached that zone before. -/
def Obligations.LegStartsChooseDirectionAndLeg : Prop :=
  (∀ (c : AxisConfig) (pr : Profile) (k : Nat) (p t : Int), c.kind = .linear →
    let w : Int := pr.window
    let plan := planLeg c.kind pr k (c.aim pr p t)
    let inside := -w ≤ t - p ∧ t - p ≤ w
    (inside → plan = .settle) ∧
    (pr.approach = .either → c.aim pr p t = ⟨if p ≤ t then .positive else .negative, |t - p|⟩) ∧
    (pr.approach = .fromBelow → c.aim pr p t = ⟨.positive, t - p⟩) ∧
    (pr.approach = .fromAbove → c.aim pr p t = ⟨.negative, p - t⟩) ∧
    (¬ inside → pr.approach = .fromBelow → t < p →
      plan = .run .negative (decide (pr.slow ≠ 0 ∧ (pr.slow : Int) < pr.takeup - (t - p))) .takeup) ∧
    (¬ inside → pr.approach = .fromAbove → p < t →
      plan = .run .positive (decide (pr.slow ≠ 0 ∧ (pr.slow : Int) < pr.takeup - (p - t))) .takeup) ∧
    (¬ inside → pr.approach = .either ∨ pr.approach = .fromBelow ∧ p < t ∨ pr.approach = .fromAbove ∧ t < p →
      let d : Dir := if p ≤ t then .positive else .negative
      (0 < k ∨ |t - p| ≤ pr.cut → plan = .run d false (.slow .short)) ∧
      (k = 0 → (pr.cut : Int) < |t - p| → pr.slow ≠ 0 → (pr.slow : Int) < |t - p| → plan = .run d true .fast) ∧
      (k = 0 → (pr.cut : Int) < |t - p| → pr.slow = 0 ∨ |t - p| ≤ pr.slow → plan = .run d false (.slow .normal)))) ∧
  (∀ (c : AxisConfig) (pr : Profile) (p t : Int), c.kind = .rotary → 0 < c.modulus →
    let f := (t - p) % c.modulus
    let g := (c.modulus - f) % c.modulus
    let aim := c.aim pr p t
    (pr.approach = .fromBelow → aim.dir = .positive) ∧ (pr.approach = .fromAbove → aim.dir = .negative) ∧
    (pr.approach = .either → c.rotPolicy = .forward → aim.dir = .positive) ∧
    (pr.approach = .either → c.rotPolicy = .reverse → aim.dir = .negative) ∧
    (pr.approach = .either → c.rotPolicy = .shortest → aim.dir = if f ≤ g then .positive else .negative) ∧
    ((pr.window : Int) < f ∧ (pr.window : Int) < g → aim.dist = if aim.dir = .positive then f else g) ∧
    (f ≤ g ∧ f ≤ pr.window → aim.dist = if aim.dir = .positive ∨ f = g then f else -f) ∧
    (g < f ∧ g ≤ pr.window → aim.dist = if aim.dir = .positive then -g else g)) ∧
  (∀ (c : AxisConfig) (pr : Profile) (k : Nat) (p t : Int), c.kind = .rotary → 0 < c.modulus →
    let f := (t - p) % c.modulus
    let g := (c.modulus - f) % c.modulus
    let aim := c.aim pr p t
    let e := if aim.dir = .positive then f else g
    let plan := planLeg c.kind pr k aim
    (f ≤ pr.window ∨ g ≤ pr.window → plan = .settle) ∧
    ((pr.window : Int) < f → (pr.window : Int) < g →
      (0 < k ∨ e ≤ pr.cut → plan = .run aim.dir false (.slow .short)) ∧
      (k = 0 → (pr.cut : Int) < e → pr.slow ≠ 0 → (pr.slow : Int) < e → plan = .run aim.dir true .fast) ∧
      (k = 0 → (pr.cut : Int) < e → pr.slow = 0 ∨ e ≤ pr.slow → plan = .run aim.dir false (.slow .normal)))) ∧
  (∀ (a : AxisId) (now : Time) (l : Dir → Bool) (p : Int) (o : ActiveOrder) (x : Axis),
    let aim := x.config.aim o.snapshot p o.target
    let aimed : ActiveOrder := { o with dir := aim.dir, dist := aim.dist }
    let leg := planLeg x.config.kind o.snapshot o.corrections aim
    let start := Axis.legStart a now l p o x
    let fresh (z : Zone) : List Zone := if o.order.notify = true ∧ z ∉ o.zones then [z] else []
    (leg = .settle →
      start =
        ({ x with
            motion :=
              .moving { aimed with substate := .settle ⟨o.settle, 0⟩, zones := o.zones ++ fresh .windowEntered } },
          (fresh .windowEntered).map (.zone a o.order.tag))) ∧
    ∀ d h sub, leg = .run d h sub →
      (l d = true → start = Axis.endOrder a now o .limited x) ∧
      (l d = false → x.permits d = false →
        start = ({ x with motion := .moving { aimed with substate := .reversing d } }, [])) ∧
      (l d = false → x.permits d = true →
        let zones : List Zone :=
          match sub with
          | .slow _ => fresh .slowEntered
          | _ => []
        start =
          ({ x with
              lines := .run d h
              stall :=
                if x.config.role = .driven ∧ x.config.stallTime ≠ 0 then some ⟨x.config.stallTime, 0⟩ else none
              motion := .moving { aimed with substate := sub, leg := some aim.dir, zones := o.zones ++ zones } },
            zones.map (.zone a o.order.tag))))

/-- A position change by one count in direction e moves d by one and acts by substate: FAST to SLOW at S, the cut of a
normal leg at C with its RUN-off, the end of a short leg at W, COAST into the window, SETTLE out of it, the take-up point at
U with its leg start (R80, R86 to R92). With NOTIFY 1 each zone reached is reported the first time the order reaches it
(R97); that PASSED is reported at the entry into COAST as well is the model's reading, notes/assumptions/23.md. Nothing else
of the axis changes. -/
def Obligations.PositionChangesRunTheApproach : Prop :=
  ∀ (a : AxisId) (now : Time) (l : Dir → Bool) (e : Dir) (x : Axis) (o : ActiveOrder), x.motion = .moving o →
    let d : Int := if e = o.dir then o.dist - 1 else o.dist + 1
    let w : Int := o.snapshot.window
    let inside := -w ≤ d ∧ d ≤ w
    let r := Axis.positionMoved a now l e x
    let reached (zones : List Zone) : List Zone := zones.filter (fun z => o.order.notify && !o.zones.contains z)
    let goes (y : Axis) (sub : Substate) (zones : List Zone) : Prop :=
      r = ({ y with motion := .moving { o with dist := d, substate := sub, zones := o.zones ++ reached zones } },
        (reached zones).map (.zone a o.order.tag))
    let rest : Substate := .coast ⟨x.config.restTime, 0⟩
    let settle : Substate := .settle ⟨o.settle, 0⟩
    let passed : List Zone := if d < -w then [.passed] else []
    (o.substate = .fast → (o.snapshot.slow : Int) < d → goes x .fast []) ∧
    (o.substate = .fast → d ≤ o.snapshot.slow → (o.snapshot.cut : Int) < d →
      goes (x.setHigh false) (.slow .normal) [.slowEntered]) ∧
    (o.substate = .fast → d ≤ o.snapshot.slow → d ≤ o.snapshot.cut → ¬ inside →
      goes (x.turnOff now) rest ([.slowEntered, .cutEntered] ++ passed)) ∧
    (o.substate = .fast → d ≤ o.snapshot.slow → d ≤ o.snapshot.cut → inside →
      goes (x.turnOff now) settle [.slowEntered, .cutEntered, .windowEntered]) ∧
    (o.substate = .slow .normal → (o.snapshot.cut : Int) < d → goes x (.slow .normal) []) ∧
    (o.substate = .slow .normal → d ≤ o.snapshot.cut → ¬ inside →
      goes (x.turnOff now) rest ([.cutEntered] ++ passed)) ∧
    (o.substate = .slow .normal → d ≤ o.snapshot.cut → inside →
      goes (x.turnOff now) settle [.cutEntered, .windowEntered]) ∧
    (o.substate = .slow .short → inside → goes (x.turnOff now) settle [.windowEntered]) ∧
    (o.substate = .slow .short → ¬ inside → goes x (.slow .short) []) ∧
    (∀ t, o.substate = .coast t → inside → goes x settle [.windowEntered]) ∧
    (∀ t, o.substate = .coast t → ¬ inside → goes x (.coast t) passed) ∧
    (∀ t, o.substate = .settle t → inside → goes x (.settle t) []) ∧
    (∀ t, o.substate = .settle t → ¬ inside → goes x rest passed) ∧
    (∀ p, o.substate = .reversing p → goes x (.reversing p) []) ∧
    (o.substate = .takeup → d < o.snapshot.takeup →
      goes (if (o.snapshot.takeup : Int) - d ≤ o.snapshot.slow then x.setHigh false else x) .takeup []) ∧
    (∀ p, o.substate = .takeup → (o.snapshot.takeup : Int) ≤ d →
      x.position = some p ∨ x.position = none ∧ p =
        (if x.config.kind = .rotary then (o.target - o.dir.sign * d) % x.config.modulus
          else o.target - o.dir.sign * d) →
      r = Axis.legStart a now l p { o with dist := d } (x.turnOff now)) ∧
    (∀ line h, x.lines = .run line h →
      (x.turnOff now).lockout = some ⟨line, now, some ⟨x.config.reversalGap, 0⟩, 0⟩ ∧ (x.turnOff now).lines = .off) ∧
    r.1.counting = x.counting ∧ r.1.config = x.config ∧ r.1.queue = x.queue ∧ r.1.log = x.log ∧
    r.1.claims = x.claims ∧ r.1.faultClaims = x.faultClaims

/-- The end of an active order (R70): lines off with a RUN-off when one was on, the order gone, ORDER-DONE, and the
motion state that outcome, CHAIN and the flag give. The settle timer's expiry ends the order ARRIVED, the move limit's
expiry TIMEOUT (R70, R91, R98). A homing run has one end of this kind, its limit's expiry: TIMEOUT, HELD, the queue kept
(R32). -/
def Obligations.OrdersEndOnceWithTheirOutcome : Prop :=
  (∀ (a : AxisId) (now : Time) (o : ActiveOrder) (why : Reason) (x : Axis), x.motion = .moving o →
    let e := Axis.endOrder a now o why x
    e.2 = [.orderDone a o.order.tag why x.position o.corrections] ∧ e.1.lines = .off ∧ e.1.stall = none ∧
    e.1.holdPending = false ∧ e.1.queue = x.queue ∧ e.1.moveQueue = x.queue ∧ x.Controlled e.1 ∧
    (x.lines = .off → e.1.lockout = x.lockout) ∧
    (∀ d h, x.lines = .run d h → e.1.lockout = some ⟨d, now, some ⟨x.config.reversalGap, 0⟩, 0⟩) ∧
    e.1.motion =
      (if why = .none ∧ o.order.chain = .continue_ ∧ x.holdPending = false then .idle
        else if why = .line ∨ why = .slip ∨ why = .overrange ∨ why = .stall then .faulted else .held)) ∧
  (∀ (s : State) (a : AxisId) (late : Nat) (t : Timer) (o : ActiveOrder), s.mayRun (t.wait late) = true →
    let v := s.runTo t late
    let ended (why : Reason) : State :=
      (v.setAxis a (Axis.endOrder a v.timebase o why (v.axis a)).1).offers
        [.orderDone a o.order.tag why (v.axis a).position o.corrections]
    ((s.axis a).motion.settleTimer = some t → (v.axis a).motion = .moving o →
      exec (.settleTimerExpiry a late) s = .next (ended .none)) ∧
    ((s.axis a).motion.moveLimit = some t → (v.axis a).motion = .moving o →
      exec (.moveLimitExpiry a late) s = .next (ended .timeout))) ∧
  (∀ (s : State) (a : AxisId) (h : Homing) (late : Nat), (s.axis a).motion = .homing h →
    s.mayRun (h.limit.wait late) = true →
    let v := s.runTo h.limit late
    let x := v.axis a
    ∃ t, exec (.homingLimitExpiry a late) s = .next t ∧
      t.axis a =
        { x.turnOff v.timebase with stall := none, motion := .held, holdPending := false } ∧
      t.notices = (v.offers [.homeFailed a .timeout]).notices ∧ (∀ b, b ≠ a → t.axis b = v.axis b) ∧
      t.tables = v.tables ∧ t.monitor = v.monitor ∧ t.link = v.link ∧ t.timebase = v.timebase ∧ t.micros = v.micros)

/-- The rest timer's expiry in COAST: with no correction left the order fails SHORT or OVERSHOOT by the side; with one
left it is counted, and a leg start from the position of that moment is taken (`Axis.legStart`): the axis settles, waits on
its lockout, runs a leg, or fails LIMITED (R84, R93 to R95). Between a counting fault and its claim that position is the one
the remaining distance stands for: notes/assumptions/12.md. -/
def Obligations.RestIsJudged : Prop :=
  ∀ (s : State) (a : AxisId) (late : Nat) (t : Timer) (o : ActiveOrder), (s.axis a).motion.restTimer = some t →
    s.mayRun (t.wait late) = true →
    let v := s.runTo t late
    let x := v.axis a
    let w : Int := o.snapshot.window
    x.motion = .moving o → o.dist < -w ∨ w < o.dist →
    (o.snapshot.corrections ≤ o.corrections →
      exec (.restTimerExpiry a late) s =
        .next ((v.setAxis a
          (Axis.endOrder a v.timebase o (if w < o.dist then .short else .overshoot) x).1).offers
            [.orderDone a o.order.tag (if w < o.dist then .short else .overshoot) x.position o.corrections])) ∧
    (∀ p, o.corrections < o.snapshot.corrections → x.position = some p →
      let aim := x.config.aim o.snapshot p o.target
      let leg := planLeg x.config.kind o.snapshot (o.corrections + 1) aim
      (∀ d h sub, leg = .run d h sub → v.monitor.limitAgainst a d = true →
        exec (.restTimerExpiry a late) s =
          .next ((v.setAxis a (Axis.endOrder a v.timebase o .limited x).1).offers
            [.orderDone a o.order.tag .limited x.position (o.corrections + 1)])) ∧
      (leg = .settle ∨ (∃ d h sub, leg = .run d h sub ∧ v.monitor.limitAgainst a d = false) →
        ∃ u q, exec (.restTimerExpiry a late) s = .next u ∧ (u.axis a).motion = .moving q ∧
          q.corrections = o.corrections + 1 ∧ q.dir = aim.dir ∧ q.dist = aim.dist ∧ q.order = o.order ∧
          q.target = o.target ∧ q.snapshot = o.snapshot ∧
          (leg = .settle → q.substate = .settle ⟨o.settle, 0⟩ ∧ (u.axis a).lines = x.lines) ∧
          (∀ d h sub, leg = .run d h sub → x.permits d = true →
            q.substate = sub ∧ (u.axis a).lines = .run d h) ∧
          (∀ d h sub, leg = .run d h sub → x.permits d = false →
            q.substate = .reversing d ∧ (u.axis a).lines = x.lines) ∧
          (u.axis a).counting = x.counting ∧ (u.axis a).queue = x.queue ∧ (∀ b, b ≠ a → u.axis b = v.axis b) ∧
          u.monitor = v.monitor ∧ u.tables = v.tables ∧ u.link = v.link)) ∧
    (∀ p, o.corrections < o.snapshot.corrections →
      x.position = some p ∨ x.position = none ∧ p =
        (if x.config.kind = .rotary then (o.target - o.dir.sign * o.dist) % x.config.modulus
          else o.target - o.dir.sign * o.dist) →
      let start :=
        Axis.legStart a v.timebase (v.monitor.limitAgainst a) p { o with corrections := o.corrections + 1 } x
      exec (.restTimerExpiry a late) s = .next ((v.setAxis a start.1).offers start.2))

/-- A stop claim fails a MOVING or HOMING axis GUARDED in any substate and leaves every other axis as it is; the claim
is gone (R33, R101, R121, R133). A limit claim ends an order whose RUN line is on in the forbidden direction, and a
jog in it, LIMITED, and has no effect on anything else (R102, R120, R130). A guard release makes a WAITING axis IDLE,
so that its start is due, and leaves every other axis as it is (R64, R134). -/
def Obligations.MonitorClaimsActByState : Prop :=
  (∀ (s : State) (a : AxisId) (rest : List Claim), (s.axis a).claims = .stop :: rest →
    let x := s.axis a
    let off : Axis :=
      { x.turnOff s.timebase with claims := rest, stall := none, motion := .held, holdPending := false }
    (∀ o, x.motion = .moving o →
      exec (.stopClaim a) s =
        .next ((s.setAxis a off).offers [.orderDone a o.order.tag .guarded x.position o.corrections])) ∧
    (∀ h, x.motion = .homing h → exec (.stopClaim a) s = .next ((s.setAxis a off).offers [.homeFailed a .guarded])) ∧
    ((∀ o, x.motion ≠ .moving o) → (∀ h, x.motion ≠ .homing h) →
      exec (.stopClaim a) s = .next (s.setAxis a { x with claims := rest }))) ∧
  (∀ (s : State) (a : AxisId) (d : Dir) (rest : List Claim), (s.axis a).claims = .limit d :: rest →
    let x := s.axis a
    let off : Axis :=
      { x.turnOff s.timebase with claims := rest, stall := none, motion := .held, holdPending := false }
    (∀ o, x.motion = .moving o → x.lines.dir = some d →
      exec (.limitClaim a) s =
        .next ((s.setAxis a off).offers [.orderDone a o.order.tag .limited x.position o.corrections])) ∧
    (∀ j, x.motion = .jogging j → j.dir = d →
      exec (.limitClaim a) s = .next ((s.setAxis a off).offers [.jogEnded a .limited])) ∧
    ((∀ o, x.motion = .moving o → x.lines.dir ≠ some d) → (∀ j, x.motion = .jogging j → j.dir ≠ d) →
      exec (.limitClaim a) s = .next (s.setAxis a { x with claims := rest }))) ∧
  (∀ (s : State) (a : AxisId) (rest : List Claim), (s.axis a).claims = .release :: rest →
    let x := s.axis a
    (x.motion = .waiting → exec (.guardRelease a) s = .next (s.setAxis a { x with claims := rest, motion := .idle })) ∧
    (x.motion ≠ .waiting → exec (.guardRelease a) s = .next (s.setAxis a { x with claims := rest })))

/-! ### Lines and jog -/

/-- The acts on the lines (R109, R111): a turn-off enters a RUN-off with its timer of REVERSAL-GAP, lines already off
change nothing, and while the RUN-off is in force only its own line may turn on. -/
def Obligations.LinesTurnOffIntoTheLockout : Prop :=
  ∀ (x : Axis) (now : Time),
    (x.lines = .off → x.turnOff now = x) ∧
    (∀ d h, x.lines = .run d h →
      x.turnOff now =
        { x with lines := .off, stall := none, lockout := some ⟨d, now, some ⟨x.config.reversalGap, 0⟩, 0⟩ }) ∧
    (x.lockout = none → ∀ d, x.permits d = true) ∧
    (∀ r, x.lockout = some r → r.timer = none → ∀ d, x.permits d = true) ∧
    (∀ r t, x.lockout = some r → r.timer = some t → x.permits r.line = true ∧ x.permits r.line.opposite = false)

/-- JOG on a DRIVEN axis (R113 to R116): the checks of R114; a start from IDLE, HELD or WAITING turns its line on, or
waits on the lockout; the same direction changes the speed and renews the deadman; another direction turns the line
off and waits; NONE ends the jog ENDED. The deadman's expiry ends the jog EXPIRED, with a RUN-off when its line was
on: HELD, never IDLE (R118, R119). -/
def Obligations.JogsRunAndEnd : Prop :=
  (∀ (s : State) (r : Request) (fs : List Field) (a : AxisId), Serves s .jog r fs → fieldAxis fs = a →
    let x := s.axis a
    let code := fieldInt fs .direction
    let speed : Speed := if fieldInt fs .speed = 0 then .creep else .high
    let high : Bool := fieldInt fs .speed != 0
    let dead : Timer := ⟨(fieldValue fs .deadman).elim 500 Int.toNat, 0⟩
    let stall : Option Timer := if x.config.stallTime = 0 then none else some ⟨x.config.stallTime, 0⟩
    let refused (res : Result) := exec .jog s = .next (s.answered r ⟨res, [], [], []⟩)
    let gives (y : Axis) (notices : List NoticeBody) :=
      exec .jog s =
        .next (((s.setAxis a y).offers notices).answered r
          ⟨.ok, [(.motion, y.motion.code), (.lines, y.lines.code)], [], []⟩)
    (x.config.role = .watched → refused .wrongState) ∧
    (x.config.role = .driven →
      (x.motion = .faulted → refused .faulted) ∧
      ((∃ o, x.motion = .moving o) ∨ (∃ h, x.motion = .homing h) → refused .wrongState) ∧
      (code = 0 → x.motion = .idle ∨ x.motion = .held ∨ x.motion = .waiting → gives x []) ∧
      (∀ j, code = 0 → x.motion = .jogging j →
        gives { x.turnOff s.timebase with stall := none, motion := .held, holdPending := false } [.jogEnded a .ended]) ∧
      ∀ d : Dir, code = d.code →
        (x.motion = .idle ∨ x.motion = .held ∨ x.motion = .waiting ∨ (∃ j, x.motion = .jogging j) →
          s.monitor.limitAgainst a d = true → refused .limited) ∧
        (s.monitor.limitAgainst a d = false →
          (x.motion = .idle ∨ x.motion = .held ∨ x.motion = .waiting → x.permits d = true →
            gives { x with lines := .run d high, stall := stall, motion := .jogging ⟨d, speed, dead, false⟩ } []) ∧
          (x.motion = .idle ∨ x.motion = .held ∨ x.motion = .waiting → x.permits d = false →
            gives { x with motion := .jogging ⟨d, speed, dead, true⟩ } []) ∧
          (∀ j, x.motion = .jogging j → d = j.dir → j.pending = true →
            gives { x with motion := .jogging ⟨d, speed, dead, true⟩ } []) ∧
          (∀ j e h, x.motion = .jogging j → d = j.dir → j.pending = false → x.lines = .run e h →
            gives { x with lines := .run e high, motion := .jogging ⟨d, speed, dead, false⟩ } []) ∧
          (∀ j e h, x.motion = .jogging j → d ≠ j.dir → j.pending = false → x.lines = .run e h → e = j.dir →
            gives { x with
              lines := .off
              stall := none
              lockout := some ⟨e, s.timebase, some ⟨x.config.reversalGap, 0⟩, 0⟩
              motion := .jogging ⟨d, speed, dead, true⟩ } []) ∧
          (∀ j, x.motion = .jogging j → d ≠ j.dir → j.pending = true → x.permits d = true →
            gives { x with lines := .run d high, stall := stall, motion := .jogging ⟨d, speed, dead, false⟩ } []) ∧
          (∀ j, x.motion = .jogging j → d ≠ j.dir → j.pending = true → x.permits d = false →
            gives { x with motion := .jogging ⟨d, speed, dead, true⟩ } [])))) ∧
  (∀ (s : State) (a : AxisId) (j : Jog) (late : Nat), (s.axis a).motion = .jogging j →
    s.mayRun (j.deadman.wait late) = true →
    let v := s.runTo j.deadman late
    exec (.deadmanExpiry a late) s =
      .next ((v.setAxis a { (v.axis a).turnOff v.timebase with
        stall := none, motion := .held, holdPending := false }).offers [.jogEnded a .expired]))

/-- The lockout timer's expiry ends the lockout and hands on to what waits: a pending jog turns its line on, a homing run
brings its lines to the wanted pattern, an order in REVERSING takes a leg start from the position of that moment
(`Axis.legStart`); with nothing waiting it does no more (R24, R85, R112, R117). Between a counting fault and its claim that
position is the one the remaining distance stands for: notes/assumptions/12.md. -/
def Obligations.LockoutExpiryHandsOn : Prop :=
  ∀ (s : State) (a : AxisId) (late : Nat) (ro : RunOff) (t : Timer), (s.axis a).lockout = some ro → ro.timer = some t →
    s.mayRun (t.wait late) = true →
    let v := s.runTo t late
    let x := v.axis a
    let y : Axis := { x with lockout := some { ro with timer := none, spent := 0 } }
    let stall : Option Timer :=
      if x.config.role = .watched ∨ x.config.stallTime = 0 then none else some ⟨x.config.stallTime, 0⟩
    let gives (z : Axis) : Prop := exec (.lockoutTimerExpiry a late) s = .next (v.setAxis a z)
    (x.motion = .idle ∨ x.motion = .held ∨ x.motion = .waiting ∨ x.motion = .faulted → gives y) ∧
    (∀ j, x.motion = .jogging j → j.pending = false → gives y) ∧
    (∀ j, x.motion = .jogging j → j.pending = true →
      gives { y with
        lines := .run j.dir (decide (j.speed = .high))
        stall := stall
        motion := .jogging { j with pending := false } }) ∧
    (∀ h, x.motion = .homing h → gives (Axis.bringLines v.timebase h y)) ∧
    (∀ h, x.motion = .homing h → x.config.role = .driven → x.lines = .off →
      gives { y with lines := .run h.wanted.1 h.wanted.2, stall := stall }) ∧
    (∀ h, x.motion = .homing h → x.config.role = .driven → x.lines = .run h.wanted.1 h.wanted.2 → gives y) ∧
    (∀ h, x.motion = .homing h → x.config.role = .watched → gives y) ∧
    (∀ o, x.motion = .moving o → (∀ d, o.substate ≠ .reversing d) → gives y) ∧
    (∀ o d p, x.motion = .moving o → o.substate = .reversing d →
      x.position = some p ∨ x.position = none ∧ p =
        (if x.config.kind = .rotary then (o.target - o.dir.sign * o.dist) % x.config.modulus
          else o.target - o.dir.sign * o.dist) →
      let start := Axis.legStart a v.timebase (v.monitor.limitAgainst a) p o y
      exec (.lockoutTimerExpiry a late) s = .next ((v.setAxis a start.1).offers start.2)) ∧
    (∀ o d p, x.motion = .moving o → o.substate = .reversing d → x.position = some p →
      let aim := x.config.aim o.snapshot p o.target
      let leg := planLeg x.config.kind o.snapshot o.corrections aim
      (∀ e h sub, leg = .run e h sub → v.monitor.limitAgainst a e = true →
        exec (.lockoutTimerExpiry a late) s =
          .next ((v.setAxis a (Axis.endOrder a v.timebase o .limited y).1).offers
            [.orderDone a o.order.tag .limited (some p) o.corrections])) ∧
      (leg = .settle → ∃ u q, exec (.lockoutTimerExpiry a late) s = .next u ∧ (u.axis a).motion = .moving q ∧
        q.substate = .settle ⟨o.settle, 0⟩ ∧ (u.axis a).lines = x.lines ∧ q.order = o.order) ∧
      (∀ e h sub, leg = .run e h sub → v.monitor.limitAgainst a e = false →
        ∃ u q, exec (.lockoutTimerExpiry a late) s = .next u ∧ (u.axis a).motion = .moving q ∧ q.substate = sub ∧
          (u.axis a).lines = .run e h ∧ (u.axis a).stall = stall ∧ q.order = o.order ∧ q.dir = aim.dir ∧
          q.dist = aim.dist ∧ q.leg = some aim.dir))

/-! ### Windows, guards, outputs -/

/-- Which positions a window contains (R125), the answer to the limit question (R129), and the axes a TRIPPED guard stops
(R134). A guard's evaluation (R132): CLEAR trips when every member is OCCUPIED, TRIPPED clears when a member is VACANT,
otherwise the state is kept. What the Window Monitor does with a position change or a gain of reference of an axis
(`State.windowsOf`): every window of the axis is tested, and every guard with a member whose occupancy changed is evaluated;
then WINDOW notices go out for each entry and leave that REPORT asks for, GUARD notices for each change of state, stop
claims for each trip, releases to each axis that no TRIPPED guard names any more, and a limit claim for each entry of a
window with a limit role (R126, R127, R130, R132 to R134). A loss of reference leaves the windows of the axis UNKNOWN, and
nothing else happens (R10, R127, R132). -/
def Obligations.WindowsContainAndGuardsKeepState : Prop :=
  ((∀ (w : Window) (p : Int),
    (w.contains .linear p = true ↔ w.lower ≤ p ∧ p ≤ w.upper) ∧
    (w.lower ≤ w.upper → (w.contains .rotary p = true ↔ w.lower ≤ p ∧ p ≤ w.upper)) ∧
    (w.upper < w.lower → (w.contains .rotary p = true ↔ w.lower ≤ p ∨ p ≤ w.upper))) ∧
  ∀ (m : WindowMonitor) (a : AxisId),
    (∀ d, m.limitAgainst a d = true ↔ ∃ e ∈ m.windows, e.2.axis = a ∧ e.2.occupancy = .occupied ∧
      (d = .positive ∧ e.2.limitRole = .noPositive ∨ d = .negative ∧ e.2.limitRole = .noNegative)) ∧
    (m.guarded a = true ↔ ∃ e ∈ m.guards, e.2.state = .tripped ∧ a ∈ e.2.stopAxes)) ∧
  (∀ (ws : Table Window) (g : Guard),
    (g.state = .clear → (∀ n ∈ g.members, occupancyAt ws n = .occupied) → g.next ws = .tripped) ∧
    (g.state = .clear → (∃ n ∈ g.members, occupancyAt ws n ≠ .occupied) → g.next ws = .clear) ∧
    (g.state = .tripped → (∃ n ∈ g.members, occupancyAt ws n = .vacant) → g.next ws = .clear) ∧
    (g.state = .tripped → (∀ n ∈ g.members, occupancyAt ws n ≠ .vacant) → g.next ws = .tripped)) ∧
  (∀ (s : State) (cs : List (AxisId × Claim)) (a : AxisId),
    (s.sends cs).axis a =
      { s.axis a with claims := (s.axis a).claims ++ (cs.filter (fun c => decide (c.1 = a))).map (·.2) }) ∧
  (∀ (s : State) (a : AxisId), s.CapacitiesOk →
    let x := s.axis a
    let old := s.monitor
    let tested (w : Window) : Occupancy :=
      match x.position with
      | none => .unknown
      | some p => if w.contains x.config.kind p then .occupied else .vacant
    let ws : Table Window :=
      old.windows.map (fun e => if e.2.axis = a then (e.1, { e.2 with occupancy := tested e.2 }) else e)
    let after (g : Guard) : GuardState :=
      if ∃ n ∈ g.members, occupancyAt old.windows n ≠ occupancyAt ws n then g.next ws else g.state
    let new : WindowMonitor :=
      { old with windows := ws, guards := old.guards.map (fun e => (e.1, { e.2 with state := after e.2 })) }
    let enters (w : Window) : Prop := w.axis = a ∧ w.occupancy ≠ .occupied ∧ tested w = .occupied
    let leaves (w : Window) : Prop := w.axis = a ∧ w.occupancy = .occupied ∧ tested w = .vacant
    let windowNotices : List NoticeBody :=
      match x.position with
      | none => []
      | some p =>
        old.windows.flatMap (fun e =>
          if enters e.2 ∧ (e.2.report = .enter ∨ e.2.report = .both) then [.window e.1 .enter p]
          else if leaves e.2 ∧ (e.2.report = .leave ∨ e.2.report = .both) then [.window e.1 .leave p]
          else [])
    let guardNotices : List NoticeBody :=
      old.guards.flatMap (fun e => if after e.2 = e.2.state then [] else [.guard e.1 (after e.2)])
    let stops : List (AxisId × Claim) :=
      old.guards.flatMap (fun e : Nat × Guard =>
        if e.2.state = .clear ∧ after e.2 = .tripped then e.2.stopAxes.map (fun b => (b, .stop)) else [])
    let released : List (AxisId × Claim) :=
      (AxisId.all.filter (fun b => old.guarded b && !new.guarded b)).map (fun b => (b, .release))
    let limits : List (AxisId × Claim) :=
      old.windows.flatMap (fun e =>
        match e.2.limitRole with
        | .none => []
        | .noPositive => if enters e.2 then [(a, .limit .positive)] else []
        | .noNegative => if enters e.2 then [(a, .limit .negative)] else [])
    s.windowsOf a =
      (({ s with monitor := new } : State).offers (windowNotices ++ guardNotices)).sends (stops ++ released ++ limits)) ∧
  (∀ (s : State) (a : AxisId), (s.axis a).counting.reference = .unreferenced →
    Table.wf s.monitor.guards →
    (∀ e ∈ s.monitor.guards, e.2.state = .tripped → ∀ n ∈ e.2.members, occupancyAt s.monitor.windows n ≠ .vacant) →
    s.windowsOf a = s.windowsUnknown a)

/-- The level and the ownership of each output (R144): a window-owned output is on exactly when a window naming it is
OCCUPIED, a host-owned one by its host value. SET-OUTPUTS sets the host values in MASK from VALUES when MASK names no
window-owned output, and is refused as a whole otherwise; both answers carry OUTPUTS and WINDOW-OWNED (R145). -/
def Obligations.OutputsFollowOwnersAndHost : Prop :=
  (∀ (m : WindowMonitor) (n : Nat), 1 ≤ n → n ≤ 8 → (∀ e ∈ m.windows, e.2.output ≤ 8) →
    (m.owned.getLsbD (n - 1) = true ↔ ∃ e ∈ m.windows, e.2.output = n) ∧
    (m.owned.getLsbD (n - 1) = true →
      (m.on.getLsbD (n - 1) = true ↔ ∃ e ∈ m.windows, e.2.output = n ∧ e.2.occupancy = .occupied)) ∧
    (m.owned.getLsbD (n - 1) = false → m.on.getLsbD (n - 1) = m.hostValues.getLsbD (n - 1))) ∧
  (∀ (s : State) (r : Request) (fs : List Field), Serves s .setOutputs r fs →
    let mask := BitVec.ofInt 8 (fieldInt fs .mask)
    let values := BitVec.ofInt 8 (fieldInt fs .values)
    (mask &&& s.monitor.owned ≠ 0 →
      exec .setOutputs s =
        .next (s.answered r
          ⟨.owned, [(.outputs, s.monitor.on.toNat), (.windowOwned, s.monitor.owned.toNat)], [], []⟩)) ∧
    (mask &&& s.monitor.owned = 0 →
      ∃ m : WindowMonitor, m.windows = s.monitor.windows ∧ m.guards = s.monitor.guards ∧
        (∀ i, i < 8 → m.hostValues.getLsbD i =
          if mask.getLsbD i then values.getLsbD i else s.monitor.hostValues.getLsbD i) ∧
        exec .setOutputs s =
          .next ({ s with monitor := m }.answered r
            ⟨.ok, [(.outputs, m.on.toNat), (.windowOwned, s.monitor.owned.toNat)], [], []⟩)))

/-- PUT-WINDOW writes the slot whole with the occupancy of the present position, brings ownership up to date and evaluates
the guards of the window; a WINDOW notice goes out for an entry or a leave of the slot that REPORT asks for, GUARD notices
for each change of state, stop claims for each trip, releases, and a limit claim of an OCCUPIED window with a limit role
(R127, R130, R132 to R134, R137). Bad bounds are BAD-VALUE (R136). -/
def Obligations.PutWindowWritesTheSlot : Prop :=
  ∀ (s : State) (r : Request) (fs : List Field) (a : AxisId), Serves s .putWindow r fs → fieldAxis fs = a →
    let x := s.axis a
    let n := fieldNat fs .window
    let lo := fieldInt fs .lower
    let hi := fieldInt fs .upper
    let old := s.monitor
    let w : Window :=
      { axis := a
        lower := lo
        upper := hi
        output := fieldNat fs .output
        report := Report.ofCode (fieldInt fs .report)
        limitRole := LimitRole.ofCode (fieldInt fs .limitRole)
        occupancy := .unknown }
    let v : Window :=
      { w with
        occupancy :=
          match x.position with
          | none => .unknown
          | some p => if w.contains x.config.kind p then .occupied else .vacant }
    (x.config.kind = .linear → hi < lo →
      exec .putWindow s = .next (s.answered r ⟨.badValue, [(.detail, 122)], [], []⟩)) ∧
    (x.config.kind = .rotary → lo < 0 ∨ x.config.modulus ≤ lo →
      exec .putWindow s = .next (s.answered r ⟨.badValue, [(.detail, 121)], [], []⟩)) ∧
    (x.config.kind = .rotary → 0 ≤ lo → lo < x.config.modulus → hi < 0 ∨ x.config.modulus ≤ hi →
      exec .putWindow s = .next (s.answered r ⟨.badValue, [(.detail, 122)], [], []⟩)) ∧
    ((x.config.kind = .linear → lo ≤ hi) →
      (x.config.kind = .rotary → 0 ≤ lo ∧ lo < x.config.modulus ∧ 0 ≤ hi ∧ hi < x.config.modulus) →
      s.CapacitiesOk →
      ∃ ws : Table Window, Table.find n ws = some v ∧ (∀ j, j ≠ n → Table.find j ws = Table.find j old.windows) ∧
        Table.wf ws ∧
        let after (g : Guard) : GuardState := if n ∈ g.members then g.next ws else g.state
        let owned : WindowMonitor := { old with windows := ws }
        let new : WindowMonitor :=
          { windows := ws
            guards := old.guards.map (fun e => (e.1, { e.2 with state := after e.2 }))
            hostValues := old.hostValues &&& ~~~(old.owned ||| owned.owned) }
        let was := occupancyAt old.windows n
        let windowNotices : List NoticeBody :=
          match x.position with
          | none => []
          | some p =>
            if was ≠ .occupied ∧ v.occupancy = .occupied ∧ (v.report = .enter ∨ v.report = .both) then
              [.window n .enter p]
            else if was = .occupied ∧ v.occupancy = .vacant ∧ (v.report = .leave ∨ v.report = .both) then
              [.window n .leave p]
            else []
        let guardNotices : List NoticeBody :=
          old.guards.flatMap (fun e => if after e.2 = e.2.state then [] else [.guard e.1 (after e.2)])
        let stops : List (AxisId × Claim) :=
          old.guards.flatMap (fun e =>
            if e.2.state = .clear ∧ after e.2 = .tripped then e.2.stopAxes.map (fun b => (b, .stop)) else [])
        let released : List (AxisId × Claim) :=
          (AxisId.all.filter (fun b => old.guarded b && !new.guarded b)).map (fun b => (b, .release))
        let limits : List (AxisId × Claim) :=
          if v.occupancy = .occupied then
            match v.limitRole with
            | .none => []
            | .noPositive => [(a, .limit .positive)]
            | .noNegative => [(a, .limit .negative)]
          else []
        exec .putWindow s =
          .next (((({ s with monitor := new } : State).offers (windowNotices ++ guardNotices)).sends
            (stops ++ released ++ limits)).answered r
              ⟨.ok, [(.created, if Table.find n old.windows = none then 1 else 0), (.occupancy, v.occupancy.code)],
                [], []⟩))

/-- DROP-WINDOW removes a window that no guard has as a member, offers nothing and sends nothing; GET-WINDOW reports
it (R138, R139, R146). DROP-GUARD removes the guard, offers no notice, and releases the axes it alone held; GET-GUARD
reports its lists in the order they were written (R142, R143). -/
def Obligations.WindowsAndGuardsAreDroppedAndRead : Prop :=
  (∀ (s : State) (r : Request) (fs : List Field),
    let n := fieldNat fs .window
    let ws := s.monitor.windows
    (Serves s .dropWindow r fs →
      (Table.find n ws = none → exec .dropWindow s = .next (s.answered r ⟨.noSuch, [], [], []⟩)) ∧
      (Table.find n ws ≠ none → (∃ e ∈ s.monitor.guards, n ∈ e.2.members) →
        exec .dropWindow s = .next (s.answered r ⟨.inUse, [], [], []⟩)) ∧
      (Table.find n ws ≠ none → (∀ e ∈ s.monitor.guards, n ∉ e.2.members) →
        ∃ m, exec .dropWindow s = .next ({ s with monitor := m }.answered r ⟨.ok, [], [], []⟩) ∧
          m.guards = s.monitor.guards ∧ Table.find n m.windows = none ∧
          (∀ j, j ≠ n → Table.find j m.windows = Table.find j ws) ∧
          m.hostValues = s.monitor.hostValues &&& ~~~(s.monitor.owned ||| m.owned))) ∧
    (Serves s .getWindow r fs →
      (Table.find n ws = none → exec .getWindow s = .next (s.answered r ⟨.noSuch, [], [], []⟩)) ∧
      (∀ w, Table.find n ws = some w →
        exec .getWindow s =
          .next (s.answered r
            ⟨.ok, [(.window, fieldInt fs .window), (.axis, w.axis.num), (.lower, w.lower), (.upper, w.upper),
              (.output, w.output), (.report, w.report.code), (.limitRole, w.limitRole.code),
              (.occupancy, w.occupancy.code)], [], []⟩)))) ∧
  (∀ (s : State) (r : Request) (fs : List Field),
    let n := fieldNat fs .guard
    let gs := s.monitor.guards
    (Serves s .dropGuard r fs →
      (Table.find n gs = none → exec .dropGuard s = .next (s.answered r ⟨.noSuch, [], [], []⟩)) ∧
      (Table.find n gs ≠ none →
        ∃ t, exec .dropGuard s = .next t ∧ Table.find n t.monitor.guards = none ∧
          (∀ j, j ≠ n → Table.find j t.monitor.guards = Table.find j gs) ∧ t.monitor.windows = s.monitor.windows ∧
          t.monitor.hostValues = s.monitor.hostValues ∧ t.notices = s.notices ∧
          (∀ b, (t.axis b) = { s.axis b with
            claims := (s.axis b).claims ++
              (if s.monitor.guarded b = true ∧ t.monitor.guarded b = false then [.release] else []) }) ∧
          t.tables = s.tables ∧ t.timebase = s.timebase ∧ t.micros = s.micros ∧
          t.link = (s.answered r ⟨.ok, [], [], []⟩).link)) ∧
    (Serves s .getGuard r fs →
      (Table.find n gs = none → exec .getGuard s = .next (s.answered r ⟨.noSuch, [], [], []⟩)) ∧
      (∀ g, Table.find n gs = some g →
        exec .getGuard s =
          .next (s.answered r
            ⟨.ok, [(.guard, fieldInt fs .guard)] ++ g.members.map (fun m => (.member, (m : Int))) ++
              g.stopAxes.map (fun a => (.stopAxis, (a.num : Int))) ++ [(.guardState, (g.state.code : Int))], [], []⟩))))

/-- PUT-GUARD writes the guard with its lists in the order given and evaluates it at once, a new one from CLEAR; a change of
state, and no other, offers GUARD; a trip sends a stop claim to every stop axis, a guard that stays TRIPPED one to every new
stop axis, and an axis that no TRIPPED guard names any more gets a release; bad lists and UNDEFINED members are refused
(R132, R133, R134, R140, R141). -/
def Obligations.PutGuardWritesTheSlot : Prop :=
  ∀ (s : State) (r : Request) (fs : List Field), Serves s .putGuard r fs →
    let n := fieldNat fs .guard
    let members := (fieldList fs .member).map Int.toNat
    let stops := (fieldList fs .stopAxis).map AxisId.ofNum
    let ws := s.monitor.windows
    let old := Table.find n s.monitor.guards
    let was : GuardState :=
      match old with
      | none => .clear
      | some g => g.state
    let ok1 := 2 ≤ members.length ∧ members.length ≤ 4 ∧ members.Nodup
    let ok2 := 1 ≤ stops.length ∧ stops.length ≤ 4 ∧ stops.Nodup
    let ok3 := ∀ k ∈ members, (Table.find k ws).isSome = true
    let will : GuardState :=
      if was = .clear then (if ∀ k ∈ members, occupancyAt ws k = .occupied then .tripped else .clear)
      else (if ∃ k ∈ members, occupancyAt ws k = .vacant then .clear else .tripped)
    (¬ ok1 → exec .putGuard s = .next (s.answered r ⟨.badValue, [(.detail, 129)], [], []⟩)) ∧
    (ok1 → ¬ ok2 → exec .putGuard s = .next (s.answered r ⟨.badValue, [(.detail, 130)], [], []⟩)) ∧
    (ok1 → ok2 → ¬ ok3 → exec .putGuard s = .next (s.answered r ⟨.noSuch, [(.detail, 129)], [], []⟩)) ∧
    (ok1 → ok2 → ok3 → s.CapacitiesOk →
      ∃ gs : Table Guard, Table.find n gs = some ⟨members, stops, will⟩ ∧
        (∀ j, j ≠ n → Table.find j gs = Table.find j s.monitor.guards) ∧ Table.wf gs ∧
        let new : WindowMonitor := { s.monitor with guards := gs }
        let notices : List NoticeBody := if will = was then [] else [.guard n will]
        let stopped : List AxisId :=
          if will = .clear then []
          else
            match old with
            | none => stops
            | some g => if g.state = .clear then stops else stops.filter (fun b => !g.stopAxes.contains b)
        let released : List AxisId := AxisId.all.filter (fun b => s.monitor.guarded b && !new.guarded b)
        exec .putGuard s =
          .next (((({ s with monitor := new } : State).offers notices).sends
            (stopped.map (fun b => (b, .stop)) ++ released.map (fun b => (b, .release)))).answered r
              ⟨.ok, [(.created, if old = none then 1 else 0), (.guardState, will.code)], [], []⟩))

/-! ### Captures -/

/-- A SENSE edge of an axis that is not homing, with no HOME that meets it: with the mode asking for it, a record joins the
ring, the oldest leaving a full one, and the first record of an empty ring offers CAPTURE-WAITING; otherwise only the pin
changes. A level that is the present one is no edge (R11, R149, R150, R152, R153). SET-CAPTURE stores the mode and reports it
with the fill of the ring; READ-CAPTURES takes up to COUNT records out, oldest first, and reports them and how many
are left (R147, R154). -/
def Obligations.CapturesAreTakenAndRead : Prop :=
  (∀ (s : State) (a : AxisId) (high : Bool) (order : List Block), (s.axis a).motion.isHoming = false →
    Block.before .linkPort .captureLog order = false ∨ s.dueRequest (some .home) = none →
    let x := s.axis a
    let active : Bool := high == decide (x.config.senseLevel = .activeHigh)
    let asks : Prop := x.log.mode = .both ∨ (active = true ∧ x.log.mode = .rise) ∨ (active = false ∧ x.log.mode = .fall)
    let record : Capture :=
      { number := x.log.nextNumber
        edge := if active then .rise else .fall
        raw := x.counting.raw
        position := x.position
        time := s.timebase
        orderTag := x.motion.active.map (fun o => o.order.tag)
        overwrote := decide (8 ≤ x.log.ring.length) }
    let y : Axis := { x with pins := { x.pins with sense := high } }
    (x.pins.sense = high → exec (.senseEdge a high order) s = .next s) ∧
    (x.pins.sense ≠ high → ¬ asks → exec (.senseEdge a high order) s = .next (s.setAxis a y)) ∧
    (x.pins.sense ≠ high → asks →
      exec (.senseEdge a high order) s =
        .next ((s.setAxis a { y with
          log :=
            { x.log with
              ring := (if x.log.ring.length < 8 then x.log.ring else x.log.ring.tail) ++ [record]
              nextNumber := if 65535 ≤ x.log.nextNumber then 1 else x.log.nextNumber + 1 } }).offers
          (if x.log.ring = [] then [.captureWaiting a] else [])))) ∧
  (∀ (s : State) (r : Request) (fs : List Field) (a : AxisId), fieldAxis fs = a →
    let x := s.axis a
    let n := fieldNat fs .count
    let mode := CaptureMode.ofCode (fieldInt fs .captureMode)
    let group (c : Capture) : List Field :=
      [(.captureNo, (c.number : Int)), (.edge, c.edge.code), (.rawCount, c.raw.toInt), (.time, c.time.toNat),
        (.overwrote, if c.overwrote then 1 else 0)] ++
        (match c.position with
          | none => []
          | some p => [(.position, p)]) ++
        (match c.orderTag with
          | none => []
          | some k => [(.orderTag, (k : Int))])
    (Serves s .setCapture r fs →
      exec .setCapture s =
        .next ((s.setAxis a { x with log := { x.log with mode := mode } }).answered r
          ⟨.ok, [(.captureMode, mode.code), (.captures, x.log.ring.length)], [], []⟩)) ∧
    (Serves s .readCaptures r fs →
      exec .readCaptures s =
        .next ((s.setAxis a { x with log := { x.log with ring := x.log.ring.drop n } }).answered r
          ⟨.ok, [], (x.log.ring.take n).map group, [(.remaining, (x.log.ring.length - n : Nat))]⟩)))

/-! ### Notices -/

/-- An offer joins UNSENT with the next number and the present time while fewer than 31 ordinary notices are held;
otherwise it is counted in the marker, which is made when there is none (R158, R159). -/
def Obligations.OffersJoinOrAreCounted : Prop :=
  ∀ (s : State) (b : NoticeBody),
    let q := s.notices
    let next : Nat := if 65535 ≤ q.nextSeq then 1 else q.nextSeq + 1
    (q.ordinary < 31 →
      s.offers [b] = { s with notices := ⟨q.entries ++ [⟨q.nextSeq, s.timebase, b, false⟩], next⟩ }) ∧
    (31 ≤ q.ordinary → (∀ e ∈ q.entries, e.isMarker = false) →
      s.offers [b] = { s with notices := ⟨q.entries ++ [⟨q.nextSeq, s.timebase, .discarded 1, false⟩], next⟩ }) ∧
    (∀ before m after c, 31 ≤ q.ordinary → q.entries = before ++ m :: after → m.body = .discarded c →
      (∀ e ∈ before ++ after, e.isMarker = false) →
      s.offers [b] =
        { s with
          notices := ⟨before ++ { m with body := .discarded (min 65535 (c + 1)) } :: after, q.nextSeq⟩ })

/-- ACK-NOTICES of a SENT notice removes it and every older one and reports how many, how many are left, and the count
of a marker among them; any other number is NO-SUCH and removes nothing (R162). RESEND-NOTICES makes every SENT notice
UNSENT, changes nothing else of any, and reports how many (R163). -/
def Obligations.NoticesAreAcknowledgedAndResent : Prop :=
  (∀ (s : State) (r : Request) (fs : List Field), Serves s .ackNotices r fs →
    let n := fieldNat fs .seq
    ((∀ e ∈ s.notices.entries, e.seq = n → e.sent = false) →
      exec .ackNotices s = .next (s.answered r ⟨.noSuch, [], [], []⟩)) ∧
    (∀ older m rest, s.notices.entries = older ++ m :: rest → m.seq = n → m.sent = true →
      (∀ e ∈ older, e.seq ≠ n) →
      let done (extra : List Field) : Prop :=
        exec .ackNotices s =
          .next ({ s with notices := ⟨rest, s.notices.nextSeq⟩ }.answered r
            ⟨.ok, [((.queued : FieldId), (rest.length : Int)), (.removed, (older.length : Int) + 1)] ++ extra, [], []⟩)
      ((∀ e ∈ older ++ [m], e.isMarker = false) → done []) ∧
      (∀ before k after (c : Nat), older ++ [m] = before ++ k :: after → k.body = .discarded c →
        (∀ e ∈ before, e.isMarker = false) → done [(.discarded, (c : Int))]))) ∧
  (∀ (s : State) (r : Request) (fs : List Field), Serves s .resendNotices r fs →
    exec .resendNotices s =
      .next ({ s with
        notices :=
          { s.notices with entries := s.notices.entries.map (fun n : Notice => { n with sent := false }) } }.answered r
          ⟨.ok, [(.resent, s.notices.entries.countP (fun n : Notice => n.sent))], [], []⟩))
end

