-- ==== Sys2Proof/Laws/State.lean ====
section
/-! SUPPORT. One lemma per field for each plain update of the state, and reading an axis after an update. -/

namespace Sys2Proof

/-! ### Four like things -/

@[simp] theorem Quad.get_set {α : Type} (q : Quad α) (a b : AxisId) (x : α) :
    (q.set a x).get b = if b = a then x else q.get b := by
  cases a <;> cases b <;> rfl

@[simp] theorem Quad.get_map {α β : Type} (f : α → β) (q : Quad α) (a : AxisId) : (q.map f).get a = f (q.get a) := by
  cases a <;> rfl

@[simp] theorem Quad.set_get {α : Type} (q : Quad α) (a : AxisId) : q.set a (q.get a) = q := by
  cases a <;> rfl

@[simp] theorem Quad.set_set {α : Type} (q : Quad α) (a : AxisId) (x y : α) : (q.set a x).set a y = q.set a y := by
  cases a <;> rfl

theorem AxisId.mem_all (a : AxisId) : a ∈ AxisId.all := by
  cases a <;> decide

end Sys2Proof

namespace Sys2Proof.Machine

/-! ### Fields after an update -/

@[simp] theorem State.setAxis_axes (s : State) (a : AxisId) (x : Axis) : (s.setAxis a x).axes = s.axes.set a x := rfl
@[simp] theorem State.setAxis_tables (s : State) (a : AxisId) (x : Axis) : (s.setAxis a x).tables = s.tables := rfl
@[simp] theorem State.setAxis_monitor (s : State) (a : AxisId) (x : Axis) : (s.setAxis a x).monitor = s.monitor := rfl
@[simp] theorem State.setAxis_notices (s : State) (a : AxisId) (x : Axis) : (s.setAxis a x).notices = s.notices := rfl
@[simp] theorem State.setAxis_link (s : State) (a : AxisId) (x : Axis) : (s.setAxis a x).link = s.link := rfl
@[simp] theorem State.setAxis_timebase (s : State) (a : AxisId) (x : Axis) : (s.setAxis a x).timebase = s.timebase := rfl
@[simp] theorem State.setAxis_micros (s : State) (a : AxisId) (x : Axis) : (s.setAxis a x).micros = s.micros := rfl
@[simp] theorem State.setAxis_pending (s : State) (a : AxisId) (x : Axis) : (s.setAxis a x).pending = s.pending := rfl

@[simp] theorem State.setTables_axes (s : State) (t : TableStore) : (s.setTables t).axes = s.axes := rfl
@[simp] theorem State.setTables_tables (s : State) (t : TableStore) : (s.setTables t).tables = t := rfl
@[simp] theorem State.setTables_monitor (s : State) (t : TableStore) : (s.setTables t).monitor = s.monitor := rfl
@[simp] theorem State.setTables_notices (s : State) (t : TableStore) : (s.setTables t).notices = s.notices := rfl
@[simp] theorem State.setTables_link (s : State) (t : TableStore) : (s.setTables t).link = s.link := rfl
@[simp] theorem State.setTables_timebase (s : State) (t : TableStore) : (s.setTables t).timebase = s.timebase := rfl
@[simp] theorem State.setTables_micros (s : State) (t : TableStore) : (s.setTables t).micros = s.micros := rfl
@[simp] theorem State.setTables_pending (s : State) (t : TableStore) : (s.setTables t).pending = s.pending := rfl

@[simp] theorem State.setMonitor_axes (s : State) (w : WindowMonitor) : (s.setMonitor w).axes = s.axes := rfl
@[simp] theorem State.setMonitor_tables (s : State) (w : WindowMonitor) : (s.setMonitor w).tables = s.tables := rfl
@[simp] theorem State.setMonitor_monitor (s : State) (w : WindowMonitor) : (s.setMonitor w).monitor = w := rfl
@[simp] theorem State.setMonitor_notices (s : State) (w : WindowMonitor) : (s.setMonitor w).notices = s.notices := rfl
@[simp] theorem State.setMonitor_link (s : State) (w : WindowMonitor) : (s.setMonitor w).link = s.link := rfl
@[simp] theorem State.setMonitor_timebase (s : State) (w : WindowMonitor) : (s.setMonitor w).timebase = s.timebase := rfl
@[simp] theorem State.setMonitor_micros (s : State) (w : WindowMonitor) : (s.setMonitor w).micros = s.micros := rfl
@[simp] theorem State.setMonitor_pending (s : State) (w : WindowMonitor) : (s.setMonitor w).pending = s.pending := rfl

@[simp] theorem State.setNotices_axes (s : State) (q : NoticeQueue) : (s.setNotices q).axes = s.axes := rfl
@[simp] theorem State.setNotices_tables (s : State) (q : NoticeQueue) : (s.setNotices q).tables = s.tables := rfl
@[simp] theorem State.setNotices_monitor (s : State) (q : NoticeQueue) : (s.setNotices q).monitor = s.monitor := rfl
@[simp] theorem State.setNotices_notices (s : State) (q : NoticeQueue) : (s.setNotices q).notices = q := rfl
@[simp] theorem State.setNotices_link (s : State) (q : NoticeQueue) : (s.setNotices q).link = s.link := rfl
@[simp] theorem State.setNotices_timebase (s : State) (q : NoticeQueue) : (s.setNotices q).timebase = s.timebase := rfl
@[simp] theorem State.setNotices_micros (s : State) (q : NoticeQueue) : (s.setNotices q).micros = s.micros := rfl
@[simp] theorem State.setNotices_pending (s : State) (q : NoticeQueue) : (s.setNotices q).pending = s.pending := rfl

@[simp] theorem State.setLink_axes (s : State) (l : LinkPort) : (s.setLink l).axes = s.axes := rfl
@[simp] theorem State.setLink_tables (s : State) (l : LinkPort) : (s.setLink l).tables = s.tables := rfl
@[simp] theorem State.setLink_monitor (s : State) (l : LinkPort) : (s.setLink l).monitor = s.monitor := rfl
@[simp] theorem State.setLink_notices (s : State) (l : LinkPort) : (s.setLink l).notices = s.notices := rfl
@[simp] theorem State.setLink_link (s : State) (l : LinkPort) : (s.setLink l).link = l := rfl
@[simp] theorem State.setLink_timebase (s : State) (l : LinkPort) : (s.setLink l).timebase = s.timebase := rfl
@[simp] theorem State.setLink_micros (s : State) (l : LinkPort) : (s.setLink l).micros = s.micros := rfl
@[simp] theorem State.setLink_pending (s : State) (l : LinkPort) : (s.setLink l).pending = s.pending := rfl

@[simp] theorem State.withPending_axes (s : State) (cs : List Instr) : (s.withPending cs).axes = s.axes := rfl
@[simp] theorem State.withPending_tables (s : State) (cs : List Instr) : (s.withPending cs).tables = s.tables := rfl
@[simp] theorem State.withPending_monitor (s : State) (cs : List Instr) : (s.withPending cs).monitor = s.monitor := rfl
@[simp] theorem State.withPending_notices (s : State) (cs : List Instr) : (s.withPending cs).notices = s.notices := rfl
@[simp] theorem State.withPending_link (s : State) (cs : List Instr) : (s.withPending cs).link = s.link := rfl
@[simp] theorem State.withPending_timebase (s : State) (cs : List Instr) : (s.withPending cs).timebase = s.timebase := rfl
@[simp] theorem State.withPending_micros (s : State) (cs : List Instr) : (s.withPending cs).micros = s.micros := rfl
@[simp] theorem State.withPending_pending (s : State) (cs : List Instr) : (s.withPending cs).pending = cs := rfl

@[simp] theorem State.modifyAxis_axes (s : State) (a : AxisId) (f : Axis → Axis) : (s.modifyAxis a f).axes = s.axes.set a (f (s.axis a)) := rfl
@[simp] theorem State.modifyAxis_tables (s : State) (a : AxisId) (f : Axis → Axis) : (s.modifyAxis a f).tables = s.tables := rfl
@[simp] theorem State.modifyAxis_monitor (s : State) (a : AxisId) (f : Axis → Axis) : (s.modifyAxis a f).monitor = s.monitor := rfl
@[simp] theorem State.modifyAxis_notices (s : State) (a : AxisId) (f : Axis → Axis) : (s.modifyAxis a f).notices = s.notices := rfl
@[simp] theorem State.modifyAxis_link (s : State) (a : AxisId) (f : Axis → Axis) : (s.modifyAxis a f).link = s.link := rfl
@[simp] theorem State.modifyAxis_timebase (s : State) (a : AxisId) (f : Axis → Axis) : (s.modifyAxis a f).timebase = s.timebase := rfl
@[simp] theorem State.modifyAxis_micros (s : State) (a : AxisId) (f : Axis → Axis) : (s.modifyAxis a f).micros = s.micros := rfl
@[simp] theorem State.modifyAxis_pending (s : State) (a : AxisId) (f : Axis → Axis) : (s.modifyAxis a f).pending = s.pending := rfl

@[simp] theorem State.offer_axes (s : State) (b : NoticeBody) : (s.offer b).axes = s.axes := rfl
@[simp] theorem State.offer_tables (s : State) (b : NoticeBody) : (s.offer b).tables = s.tables := rfl
@[simp] theorem State.offer_monitor (s : State) (b : NoticeBody) : (s.offer b).monitor = s.monitor := rfl
@[simp] theorem State.offer_notices (s : State) (b : NoticeBody) : (s.offer b).notices = s.notices.offer s.timebase b := rfl
@[simp] theorem State.offer_link (s : State) (b : NoticeBody) : (s.offer b).link = s.link := rfl
@[simp] theorem State.offer_timebase (s : State) (b : NoticeBody) : (s.offer b).timebase = s.timebase := rfl
@[simp] theorem State.offer_micros (s : State) (b : NoticeBody) : (s.offer b).micros = s.micros := rfl
@[simp] theorem State.offer_pending (s : State) (b : NoticeBody) : (s.offer b).pending = s.pending := rfl

@[simp] theorem State.send_axes (s : State) (a : AxisId) (c : Claim) : (s.send a c).axes = s.axes.set a { s.axis a with claims := (s.axis a).claims ++ [c] } := rfl
@[simp] theorem State.send_tables (s : State) (a : AxisId) (c : Claim) : (s.send a c).tables = s.tables := rfl
@[simp] theorem State.send_monitor (s : State) (a : AxisId) (c : Claim) : (s.send a c).monitor = s.monitor := rfl
@[simp] theorem State.send_notices (s : State) (a : AxisId) (c : Claim) : (s.send a c).notices = s.notices := rfl
@[simp] theorem State.send_link (s : State) (a : AxisId) (c : Claim) : (s.send a c).link = s.link := rfl
@[simp] theorem State.send_timebase (s : State) (a : AxisId) (c : Claim) : (s.send a c).timebase = s.timebase := rfl
@[simp] theorem State.send_micros (s : State) (a : AxisId) (c : Claim) : (s.send a c).micros = s.micros := rfl
@[simp] theorem State.send_pending (s : State) (a : AxisId) (c : Claim) : (s.send a c).pending = s.pending := rfl

@[simp] theorem State.advance_axes (s : State) (n : Nat) : (s.advance n).axes = s.axes.map (Axis.advance n) := rfl
@[simp] theorem State.advance_tables (s : State) (n : Nat) : (s.advance n).tables = s.tables := rfl
@[simp] theorem State.advance_monitor (s : State) (n : Nat) : (s.advance n).monitor = s.monitor := rfl
@[simp] theorem State.advance_notices (s : State) (n : Nat) : (s.advance n).notices = s.notices := rfl
@[simp] theorem State.advance_link (s : State) (n : Nat) : (s.advance n).link = s.link.advance n := rfl
@[simp] theorem State.advance_timebase (s : State) (n : Nat) :
    (s.advance n).timebase = s.timebase + BitVec.ofNat 32 ((s.micros + n) / 1000) := rfl
@[simp] theorem State.advance_micros (s : State) (n : Nat) : (s.advance n).micros = (s.micros + n) % 1000 := rfl
@[simp] theorem State.advance_pending (s : State) (n : Nat) : (s.advance n).pending = s.pending := rfl

/-! ### An axis after an update -/

@[simp] theorem State.setAxis_axis (s : State) (a b : AxisId) (x : Axis) :
    (s.setAxis a x).axis b = if b = a then x else s.axis b := Quad.get_set ..

@[simp] theorem State.modifyAxis_axis (s : State) (a b : AxisId) (f : Axis → Axis) :
    (s.modifyAxis a f).axis b = if b = a then f (s.axis a) else s.axis b := Quad.get_set ..

@[simp] theorem State.send_axis (s : State) (a b : AxisId) (c : Claim) :
    (s.send a c).axis b = if b = a then { s.axis a with claims := (s.axis a).claims ++ [c] } else s.axis b :=
  Quad.get_set ..

@[simp] theorem State.advance_axis (s : State) (n : Nat) (a : AxisId) : (s.advance n).axis a = (s.axis a).advance n :=
  Quad.get_map ..

@[simp] theorem State.setTables_axis (s : State) (t : TableStore) (a : AxisId) : (s.setTables t).axis a = s.axis a := rfl
@[simp] theorem State.setMonitor_axis (s : State) (w : WindowMonitor) (a : AxisId) : (s.setMonitor w).axis a = s.axis a := rfl
@[simp] theorem State.setNotices_axis (s : State) (q : NoticeQueue) (a : AxisId) : (s.setNotices q).axis a = s.axis a := rfl
@[simp] theorem State.setLink_axis (s : State) (l : LinkPort) (a : AxisId) : (s.setLink l).axis a = s.axis a := rfl
@[simp] theorem State.withPending_axis (s : State) (cs : List Instr) (a : AxisId) : (s.withPending cs).axis a = s.axis a := rfl
@[simp] theorem State.offer_axis (s : State) (b : NoticeBody) (a : AxisId) : (s.offer b).axis a = s.axis a := rfl

/-! ### Fields of an axis after an update -/

@[simp] theorem Axis.turnOn_config (d : Dir) (h : Bool) (x : Axis) : (x.turnOn d h).config = x.config := rfl
@[simp] theorem Axis.turnOn_pins (d : Dir) (h : Bool) (x : Axis) : (x.turnOn d h).pins = x.pins := rfl
@[simp] theorem Axis.turnOn_counting (d : Dir) (h : Bool) (x : Axis) : (x.turnOn d h).counting = x.counting := rfl
@[simp] theorem Axis.turnOn_motion (d : Dir) (h : Bool) (x : Axis) : (x.turnOn d h).motion = x.motion := rfl
@[simp] theorem Axis.turnOn_queue (d : Dir) (h : Bool) (x : Axis) : (x.turnOn d h).queue = x.queue := rfl
@[simp] theorem Axis.turnOn_holdPending (d : Dir) (h : Bool) (x : Axis) : (x.turnOn d h).holdPending = x.holdPending := rfl
@[simp] theorem Axis.turnOn_lines (d : Dir) (h : Bool) (x : Axis) : (x.turnOn d h).lines = .run d h := rfl
@[simp] theorem Axis.turnOn_lockout (d : Dir) (h : Bool) (x : Axis) : (x.turnOn d h).lockout = x.lockout := rfl
@[simp] theorem Axis.turnOn_stall (d : Dir) (h : Bool) (x : Axis) : (x.turnOn d h).stall = x.newStall := rfl
@[simp] theorem Axis.turnOn_claims (d : Dir) (h : Bool) (x : Axis) : (x.turnOn d h).claims = x.claims := rfl
@[simp] theorem Axis.turnOn_faultClaims (d : Dir) (h : Bool) (x : Axis) : (x.turnOn d h).faultClaims = x.faultClaims := rfl
@[simp] theorem Axis.turnOn_log (d : Dir) (h : Bool) (x : Axis) : (x.turnOn d h).log = x.log := rfl

@[simp] theorem Axis.setHigh_config (h : Bool) (x : Axis) : (x.setHigh h).config = x.config := by
  unfold Axis.setHigh; cases x.lines <;> rfl
@[simp] theorem Axis.setHigh_pins (h : Bool) (x : Axis) : (x.setHigh h).pins = x.pins := by
  unfold Axis.setHigh; cases x.lines <;> rfl
@[simp] theorem Axis.setHigh_counting (h : Bool) (x : Axis) : (x.setHigh h).counting = x.counting := by
  unfold Axis.setHigh; cases x.lines <;> rfl
@[simp] theorem Axis.setHigh_motion (h : Bool) (x : Axis) : (x.setHigh h).motion = x.motion := by
  unfold Axis.setHigh; cases x.lines <;> rfl
@[simp] theorem Axis.setHigh_queue (h : Bool) (x : Axis) : (x.setHigh h).queue = x.queue := by
  unfold Axis.setHigh; cases x.lines <;> rfl
@[simp] theorem Axis.setHigh_holdPending (h : Bool) (x : Axis) : (x.setHigh h).holdPending = x.holdPending := by
  unfold Axis.setHigh; cases x.lines <;> rfl
@[simp] theorem Axis.setHigh_lockout (h : Bool) (x : Axis) : (x.setHigh h).lockout = x.lockout := by
  unfold Axis.setHigh; cases x.lines <;> rfl
@[simp] theorem Axis.setHigh_stall (h : Bool) (x : Axis) : (x.setHigh h).stall = x.stall := by
  unfold Axis.setHigh; cases x.lines <;> rfl
@[simp] theorem Axis.setHigh_claims (h : Bool) (x : Axis) : (x.setHigh h).claims = x.claims := by
  unfold Axis.setHigh; cases x.lines <;> rfl
@[simp] theorem Axis.setHigh_faultClaims (h : Bool) (x : Axis) : (x.setHigh h).faultClaims = x.faultClaims := by
  unfold Axis.setHigh; cases x.lines <;> rfl
@[simp] theorem Axis.setHigh_log (h : Bool) (x : Axis) : (x.setHigh h).log = x.log := by
  unfold Axis.setHigh; cases x.lines <;> rfl

@[simp] theorem Axis.turnOff_config (now : Time) (x : Axis) : (x.turnOff now).config = x.config := by
  unfold Axis.turnOff; cases x.lines <;> rfl
@[simp] theorem Axis.turnOff_pins (now : Time) (x : Axis) : (x.turnOff now).pins = x.pins := by
  unfold Axis.turnOff; cases x.lines <;> rfl
@[simp] theorem Axis.turnOff_counting (now : Time) (x : Axis) : (x.turnOff now).counting = x.counting := by
  unfold Axis.turnOff; cases x.lines <;> rfl
@[simp] theorem Axis.turnOff_motion (now : Time) (x : Axis) : (x.turnOff now).motion = x.motion := by
  unfold Axis.turnOff; cases x.lines <;> rfl
@[simp] theorem Axis.turnOff_queue (now : Time) (x : Axis) : (x.turnOff now).queue = x.queue := by
  unfold Axis.turnOff; cases x.lines <;> rfl
@[simp] theorem Axis.turnOff_holdPending (now : Time) (x : Axis) : (x.turnOff now).holdPending = x.holdPending := by
  unfold Axis.turnOff; cases x.lines <;> rfl
@[simp] theorem Axis.turnOff_claims (now : Time) (x : Axis) : (x.turnOff now).claims = x.claims := by
  unfold Axis.turnOff; cases x.lines <;> rfl
@[simp] theorem Axis.turnOff_faultClaims (now : Time) (x : Axis) : (x.turnOff now).faultClaims = x.faultClaims := by
  unfold Axis.turnOff; cases x.lines <;> rfl
@[simp] theorem Axis.turnOff_log (now : Time) (x : Axis) : (x.turnOff now).log = x.log := by
  unfold Axis.turnOff; cases x.lines <;> rfl

@[simp] theorem Axis.endLockout_config (x : Axis) : (x.endLockout).config = x.config := rfl
@[simp] theorem Axis.endLockout_pins (x : Axis) : (x.endLockout).pins = x.pins := rfl
@[simp] theorem Axis.endLockout_counting (x : Axis) : (x.endLockout).counting = x.counting := rfl
@[simp] theorem Axis.endLockout_motion (x : Axis) : (x.endLockout).motion = x.motion := rfl
@[simp] theorem Axis.endLockout_queue (x : Axis) : (x.endLockout).queue = x.queue := rfl
@[simp] theorem Axis.endLockout_holdPending (x : Axis) : (x.endLockout).holdPending = x.holdPending := rfl
@[simp] theorem Axis.endLockout_lines (x : Axis) : (x.endLockout).lines = x.lines := rfl
@[simp] theorem Axis.endLockout_lockout (x : Axis) : (x.endLockout).lockout = x.lockout.map (fun r => { r with timer := none, spent := 0 }) := rfl
@[simp] theorem Axis.endLockout_stall (x : Axis) : (x.endLockout).stall = x.stall := rfl
@[simp] theorem Axis.endLockout_claims (x : Axis) : (x.endLockout).claims = x.claims := rfl
@[simp] theorem Axis.endLockout_faultClaims (x : Axis) : (x.endLockout).faultClaims = x.faultClaims := rfl
@[simp] theorem Axis.endLockout_log (x : Axis) : (x.endLockout).log = x.log := rfl

@[simp] theorem Axis.changeGap_config (g : Nat) (x : Axis) : (x.changeGap g).config = x.config := rfl
@[simp] theorem Axis.changeGap_pins (g : Nat) (x : Axis) : (x.changeGap g).pins = x.pins := rfl
@[simp] theorem Axis.changeGap_counting (g : Nat) (x : Axis) : (x.changeGap g).counting = x.counting := rfl
@[simp] theorem Axis.changeGap_motion (g : Nat) (x : Axis) : (x.changeGap g).motion = x.motion := rfl
@[simp] theorem Axis.changeGap_queue (g : Nat) (x : Axis) : (x.changeGap g).queue = x.queue := rfl
@[simp] theorem Axis.changeGap_holdPending (g : Nat) (x : Axis) : (x.changeGap g).holdPending = x.holdPending := rfl
@[simp] theorem Axis.changeGap_lines (g : Nat) (x : Axis) : (x.changeGap g).lines = x.lines := rfl
@[simp] theorem Axis.changeGap_lockout (g : Nat) (x : Axis) : (x.changeGap g).lockout = x.lockout.map (RunOff.withGap g) := rfl
@[simp] theorem Axis.changeGap_stall (g : Nat) (x : Axis) : (x.changeGap g).stall = x.stall := rfl
@[simp] theorem Axis.changeGap_claims (g : Nat) (x : Axis) : (x.changeGap g).claims = x.claims := rfl
@[simp] theorem Axis.changeGap_faultClaims (g : Nat) (x : Axis) : (x.changeGap g).faultClaims = x.faultClaims := rfl
@[simp] theorem Axis.changeGap_log (g : Nat) (x : Axis) : (x.changeGap g).log = x.log := rfl

/-- A new gap leaves the time since the turn-off as it is, while the lockout is in force. -/
theorem RunOff.withGap_since (gap : Nat) (r : RunOff) {t : Timer} (h : r.timer = some t) :
    ∃ u, (r.withGap gap).timer = some u ∧ u.duration = gap ∧ u.elapsed ≤ 1000 * gap ∧
      (r.withGap gap).spent + u.elapsed = r.spent + t.elapsed := by
  refine ⟨⟨gap, min (r.spent + t.elapsed) (1000 * gap)⟩, ?_, rfl, Nat.min_le_right .., ?_⟩
  · simp [RunOff.withGap, h]
  · simp only [RunOff.withGap, h]
    omega

@[simp] theorem Axis.restartStall_config (x : Axis) : (x.restartStall).config = x.config := rfl
@[simp] theorem Axis.restartStall_pins (x : Axis) : (x.restartStall).pins = x.pins := rfl
@[simp] theorem Axis.restartStall_counting (x : Axis) : (x.restartStall).counting = x.counting := rfl
@[simp] theorem Axis.restartStall_motion (x : Axis) : (x.restartStall).motion = x.motion := rfl
@[simp] theorem Axis.restartStall_queue (x : Axis) : (x.restartStall).queue = x.queue := rfl
@[simp] theorem Axis.restartStall_holdPending (x : Axis) : (x.restartStall).holdPending = x.holdPending := rfl
@[simp] theorem Axis.restartStall_lines (x : Axis) : (x.restartStall).lines = x.lines := rfl
@[simp] theorem Axis.restartStall_lockout (x : Axis) : (x.restartStall).lockout = x.lockout := rfl
@[simp] theorem Axis.restartStall_stall (x : Axis) : (x.restartStall).stall = x.stall.map Timer.again := rfl
@[simp] theorem Axis.restartStall_claims (x : Axis) : (x.restartStall).claims = x.claims := rfl
@[simp] theorem Axis.restartStall_faultClaims (x : Axis) : (x.restartStall).faultClaims = x.faultClaims := rfl
@[simp] theorem Axis.restartStall_log (x : Axis) : (x.restartStall).log = x.log := rfl

@[simp] theorem Axis.popClaim_config (x : Axis) : (x.popClaim).config = x.config := rfl
@[simp] theorem Axis.popClaim_pins (x : Axis) : (x.popClaim).pins = x.pins := rfl
@[simp] theorem Axis.popClaim_counting (x : Axis) : (x.popClaim).counting = x.counting := rfl
@[simp] theorem Axis.popClaim_motion (x : Axis) : (x.popClaim).motion = x.motion := rfl
@[simp] theorem Axis.popClaim_queue (x : Axis) : (x.popClaim).queue = x.queue := rfl
@[simp] theorem Axis.popClaim_holdPending (x : Axis) : (x.popClaim).holdPending = x.holdPending := rfl
@[simp] theorem Axis.popClaim_lines (x : Axis) : (x.popClaim).lines = x.lines := rfl
@[simp] theorem Axis.popClaim_lockout (x : Axis) : (x.popClaim).lockout = x.lockout := rfl
@[simp] theorem Axis.popClaim_stall (x : Axis) : (x.popClaim).stall = x.stall := rfl
@[simp] theorem Axis.popClaim_claims (x : Axis) : (x.popClaim).claims = x.claims.tail := rfl
@[simp] theorem Axis.popClaim_faultClaims (x : Axis) : (x.popClaim).faultClaims = x.faultClaims := rfl
@[simp] theorem Axis.popClaim_log (x : Axis) : (x.popClaim).log = x.log := rfl

@[simp] theorem Axis.turnOff_lines (now : Time) (x : Axis) : (x.turnOff now).lines = .off := by
  unfold Axis.turnOff
  cases h : x.lines
  · exact h
  · rfl

theorem Axis.turnOff_of_off (now : Time) (x : Axis) (h : x.lines = .off) : x.turnOff now = x := by
  unfold Axis.turnOff
  rw [h]

theorem Axis.turnOff_of_run (now : Time) (x : Axis) (d : Dir) (h : Bool) (hl : x.lines = .run d h) :
    x.turnOff now =
      { x with
        lines := .off
        stall := none
        lockout := some ⟨d, now, some (Timer.start x.config.reversalGap), 0⟩ } := by
  unfold Axis.turnOff
  rw [hl]

theorem Axis.setHigh_of_run (b : Bool) (x : Axis) (d : Dir) (h : Bool) (hl : x.lines = .run d h) :
    x.setHigh b = { x with lines := .run d b } := by
  unfold Axis.setHigh
  rw [hl]

end Sys2Proof.Machine
end

