-- ==== Sys2Proof/Laws/Ops.lean ====
section
/-! SUPPORT. What the shared operations over the state can do: offers touch the Notice Queue, claims sent touch the claims
in flight, an Axis Controller touches its axis; keyed stores and the clock. -/

namespace Sys2Proof.Machine

/-! ### Offers -/

theorem State.offers_eq (s : State) (bs : List NoticeBody) :
    s.offers bs = s.setNotices (bs.foldl (fun q b => q.offer s.timebase b) s.notices) := by
  induction bs generalizing s with
  | nil => rfl
  | cons b bs ih =>
    show (s.offer b).offers bs = _
    rw [ih]
    rfl

@[simp] theorem State.offers_axis (s : State) (bs : List NoticeBody) (a : AxisId) : (s.offers bs).axis a = s.axis a := by
  rw [offers_eq]; rfl
@[simp] theorem State.offers_axes (s : State) (bs : List NoticeBody) : (s.offers bs).axes = s.axes := by
  rw [offers_eq]; rfl
@[simp] theorem State.offers_tables (s : State) (bs : List NoticeBody) : (s.offers bs).tables = s.tables := by
  rw [offers_eq]; rfl
@[simp] theorem State.offers_monitor (s : State) (bs : List NoticeBody) : (s.offers bs).monitor = s.monitor := by
  rw [offers_eq]; rfl
@[simp] theorem State.offers_link (s : State) (bs : List NoticeBody) : (s.offers bs).link = s.link := by
  rw [offers_eq]; rfl
@[simp] theorem State.offers_timebase (s : State) (bs : List NoticeBody) : (s.offers bs).timebase = s.timebase := by
  rw [offers_eq]; rfl
@[simp] theorem State.offers_micros (s : State) (bs : List NoticeBody) : (s.offers bs).micros = s.micros := by
  rw [offers_eq]; rfl
@[simp] theorem State.offers_pending (s : State) (bs : List NoticeBody) : (s.offers bs).pending = s.pending := by
  rw [offers_eq]; rfl
@[simp] theorem State.offers_nil (s : State) : s.offers [] = s := rfl

/-! ### Claims sent -/

/-- Claims sent behind those in flight; nothing else of an axis changes. -/
theorem State.sends_axis (s : State) (cs : List (AxisId × Claim)) (a : AxisId) :
    (s.sends cs).axis a =
      { s.axis a with claims := (s.axis a).claims ++ (cs.filter (fun c => c.1 = a)).map (·.2) } := by
  induction cs generalizing s with
  | nil => simp [State.sends]
  | cons c cs ih =>
    show ((s.send c.1 c.2).sends cs).axis a = _
    rw [ih]
    by_cases h : c.1 = a
    · subst h; simp
    · have h' : ¬ a = c.1 := fun e => h e.symm
      simp [h, h']

theorem State.sends_rest (s : State) (cs : List (AxisId × Claim)) :
    (s.sends cs).tables = s.tables ∧ (s.sends cs).monitor = s.monitor ∧ (s.sends cs).notices = s.notices ∧
      (s.sends cs).link = s.link ∧ (s.sends cs).timebase = s.timebase ∧ (s.sends cs).micros = s.micros ∧
      (s.sends cs).pending = s.pending := by
  induction cs generalizing s with
  | nil => simp [State.sends]
  | cons c cs ih => exact ih (s.send c.1 c.2)

@[simp] theorem State.sends_tables (s : State) (cs : List (AxisId × Claim)) : (s.sends cs).tables = s.tables :=
  (s.sends_rest cs).1
@[simp] theorem State.sends_monitor (s : State) (cs : List (AxisId × Claim)) : (s.sends cs).monitor = s.monitor :=
  (s.sends_rest cs).2.1
@[simp] theorem State.sends_notices (s : State) (cs : List (AxisId × Claim)) : (s.sends cs).notices = s.notices :=
  (s.sends_rest cs).2.2.1
@[simp] theorem State.sends_link (s : State) (cs : List (AxisId × Claim)) : (s.sends cs).link = s.link :=
  (s.sends_rest cs).2.2.2.1
@[simp] theorem State.sends_timebase (s : State) (cs : List (AxisId × Claim)) : (s.sends cs).timebase = s.timebase :=
  (s.sends_rest cs).2.2.2.2.1
@[simp] theorem State.sends_pending (s : State) (cs : List (AxisId × Claim)) : (s.sends cs).pending = s.pending :=
  (s.sends_rest cs).2.2.2.2.2.2
@[simp] theorem State.sends_micros (s : State) (cs : List (AxisId × Claim)) : (s.sends cs).micros = s.micros :=
  (s.sends_rest cs).2.2.2.2.2.1

theorem Axis.SameButClaims.refl (x : Axis) : x.SameButClaims x := rfl

theorem Axis.SameButClaims.trans {x y z : Axis} (h : x.SameButClaims y) (k : y.SameButClaims z) : x.SameButClaims z := by
  unfold SameButClaims at *
  rw [k, h]

theorem State.sends_same (s : State) (cs : List (AxisId × Claim)) (a : AxisId) :
    (s.axis a).SameButClaims ((s.sends cs).axis a) := by
  rw [sends_axis]; rfl

/-! ### An Axis Controller takes an event -/

@[simp] theorem State.take_axis (s : State) (a b : AxisId) (f : Axis → Taken) :
    (s.take a f).axis b = if b = a then (f (s.axis a)).1 else s.axis b := by
  unfold State.take; simp

@[simp] theorem State.take_tables (s : State) (a : AxisId) (f : Axis → Taken) : (s.take a f).tables = s.tables := by
  unfold State.take; simp
@[simp] theorem State.take_monitor (s : State) (a : AxisId) (f : Axis → Taken) : (s.take a f).monitor = s.monitor := by
  unfold State.take; simp
@[simp] theorem State.take_link (s : State) (a : AxisId) (f : Axis → Taken) : (s.take a f).link = s.link := by
  unfold State.take; simp
@[simp] theorem State.take_timebase (s : State) (a : AxisId) (f : Axis → Taken) :
    (s.take a f).timebase = s.timebase := by
  unfold State.take; simp
@[simp] theorem State.take_micros (s : State) (a : AxisId) (f : Axis → Taken) :
    (s.take a f).micros = s.micros := by
  unfold State.take; simp
@[simp] theorem State.take_pending (s : State) (a : AxisId) (f : Axis → Taken) : (s.take a f).pending = s.pending := by
  unfold State.take; simp
@[simp] theorem State.take_notices (s : State) (a : AxisId) (f : Axis → Taken) :
    (s.take a f).notices = (s.offers (f (s.axis a)).2).notices := by
  unfold State.take
  rw [State.offers_eq, State.offers_eq]; rfl

/-! ### The Window Monitor takes an event -/

@[simp] theorem State.monitorTakes_tables (s : State) (p : Option Int) (ws : Table Window) (k : Guard → Bool)
    (l : Nat → Window → Bool) : (s.monitorTakes p ws k l).tables = s.tables := by
  unfold State.monitorTakes; simp
@[simp] theorem State.monitorTakes_link (s : State) (p : Option Int) (ws : Table Window) (k : Guard → Bool)
    (l : Nat → Window → Bool) : (s.monitorTakes p ws k l).link = s.link := by
  unfold State.monitorTakes; simp
@[simp] theorem State.monitorTakes_timebase (s : State) (p : Option Int) (ws : Table Window) (k : Guard → Bool)
    (l : Nat → Window → Bool) : (s.monitorTakes p ws k l).timebase = s.timebase := by
  unfold State.monitorTakes; simp
@[simp] theorem State.monitorTakes_micros (s : State) (p : Option Int) (ws : Table Window) (k : Guard → Bool)
    (l : Nat → Window → Bool) : (s.monitorTakes p ws k l).micros = s.micros := by
  unfold State.monitorTakes; simp
@[simp] theorem State.monitorTakes_pending (s : State) (p : Option Int) (ws : Table Window) (k : Guard → Bool)
    (l : Nat → Window → Bool) : (s.monitorTakes p ws k l).pending = s.pending := by
  unfold State.monitorTakes; simp
@[simp] theorem State.monitorTakes_monitor (s : State) (p : Option Int) (ws : Table Window) (k : Guard → Bool)
    (l : Nat → Window → Bool) :
    (s.monitorTakes p ws k l).monitor =
      { s.monitor with windows := ws, guards := evaluate ws k s.monitor.guards } := by
  unfold State.monitorTakes; simp

/-- The Window Monitor changes nothing of an axis but the claims in flight to it. -/
theorem State.monitorTakes_same (s : State) (p : Option Int) (ws : Table Window) (k : Guard → Bool)
    (l : Nat → Window → Bool) (a : AxisId) : (s.axis a).SameButClaims ((s.monitorTakes p ws k l).axis a) := by
  unfold State.monitorTakes
  refine Axis.SameButClaims.trans ?_ (State.sends_same _ _ a)
  simp [Axis.SameButClaims]

@[simp] theorem State.windowsOf_tables (s : State) (a : AxisId) : (s.windowsOf a).tables = s.tables := by
  unfold State.windowsOf; simp
@[simp] theorem State.windowsOf_link (s : State) (a : AxisId) : (s.windowsOf a).link = s.link := by
  unfold State.windowsOf; simp
@[simp] theorem State.windowsOf_timebase (s : State) (a : AxisId) : (s.windowsOf a).timebase = s.timebase := by
  unfold State.windowsOf; simp
@[simp] theorem State.windowsOf_micros (s : State) (a : AxisId) : (s.windowsOf a).micros = s.micros := by
  unfold State.windowsOf; simp
@[simp] theorem State.windowsOf_pending (s : State) (a : AxisId) : (s.windowsOf a).pending = s.pending := by
  unfold State.windowsOf; simp
@[simp] theorem State.windowsOf_windows (s : State) (a : AxisId) :
    (s.windowsOf a).monitor.windows = retest a (s.axis a) s.monitor.windows := by
  unfold State.windowsOf; simp
@[simp] theorem State.windowsOf_hostValues (s : State) (a : AxisId) :
    (s.windowsOf a).monitor.hostValues = s.monitor.hostValues := by
  unfold State.windowsOf; simp

theorem State.windowsOf_same (s : State) (a b : AxisId) : (s.axis b).SameButClaims ((s.windowsOf a).axis b) :=
  State.monitorTakes_same ..

/-! ### The expiry of a timer -/

/-- An expiry that is not due in its turn changes nothing. -/
theorem State.expire_none (s : State) (late : Nat) (f : State → State) : s.expire none late f = s := rfl

/-- An expiry in its turn: the clock runs to it, and the effect follows. -/
theorem State.expire_some {s : State} {t : Timer} {late : Nat} (h : s.mayRun (t.wait late) = true)
    (f : State → State) : s.expire (some t) late f = f (s.runTo t late) := by
  simp only [State.expire, h, if_true]

/-- An expiry out of its turn changes nothing. -/
theorem State.expire_out {s : State} {t : Timer} {late : Nat} (h : s.mayRun (t.wait late) = false)
    (f : State → State) : s.expire (some t) late f = s := by
  simp [State.expire, h]

/-- All an expiry can do: nothing, or its effect after the clock has run to the end of the timer. -/
theorem State.expire_cases (s : State) (t : Option Timer) (late : Nat) (f : State → State) :
    s.expire t late f = s ∨ ∃ u, t = some u ∧ s.mayRun (u.wait late) = true ∧ s.expire t late f = f (s.runTo u late) := by
  cases t with
  | none => exact Or.inl rfl
  | some u =>
    cases h : s.mayRun (u.wait late)
    · exact Or.inl (State.expire_out h f)
    · exact Or.inr ⟨u, rfl, h, State.expire_some h f⟩

/-! ### Time that runs -/

/-- The running timers after n microseconds: the same ones, advanced. -/
theorem Motion.timers_advance (m : Motion) (n : Nat) :
    (m.advance n).timers = m.timers.map (Timer.advance n) := by
  cases m with
  | moving o =>
    obtain ⟨_, _, _, _, _, _, _, _, l, sub, _, _, _⟩ := o
    cases l <;> cases sub <;> rfl
  | idle | held | waiting | homing | jogging | faulted => rfl

theorem Axis.timers_advance (x : Axis) (n : Nat) : (x.advance n).timers = x.timers.map (Timer.advance n) := by
  have hl : ((x.advance n).lockout.bind RunOff.timer).toList =
      ((x.lockout.bind RunOff.timer).toList).map (Timer.advance n) := by
    unfold Axis.advance
    rcases x.lockout with _ | ⟨_, _, _ | _, _⟩ <;> rfl
  have hm : (x.advance n).motion.timers = x.motion.timers.map (Timer.advance n) := Motion.timers_advance _ _
  have hc : (x.advance n).counting.lineTimer.toList = x.counting.lineTimer.toList.map (Timer.advance n) := by
    unfold Axis.advance
    cases x.counting.lineTimer <;> simp
  have hs : (x.advance n).stall.toList = x.stall.toList.map (Timer.advance n) := by
    unfold Axis.advance
    cases x.stall <;> simp
  unfold Axis.timers
  rw [hc, hm, hl, hs]
  simp

theorem LinkPort.timers_advance (l : LinkPort) (n : Nat) :
    (l.advance n).timers = l.timers.map (Timer.advance n) := by
  obtain ⟨f, _, _, _, _, t, _, k, _, _, _, _, _⟩ := l
  cases f <;> cases k <;> cases t <;> rfl

theorem State.timers_advance (s : State) (n : Nat) :
    (s.advance n).timers = s.timers.map (Timer.advance n) := by
  have ha : ∀ a, ((s.advance n).axis a).timers = (s.axis a).timers.map (Timer.advance n) := fun a => by
    rw [State.advance_axis, Axis.timers_advance]
  unfold State.timers
  rw [State.advance_link, LinkPort.timers_advance]
  simp only [AxisId.all, List.flatMap_cons, List.flatMap_nil, List.append_nil, List.map_append, ha]

/-- Time that may run keeps every timer before its last moment. -/
theorem State.TimersOk.advance {s : State} (h : s.TimersOk) {n : Nat} (hn : s.mayRun n = true) :
    (s.advance n).TimersOk := by
  refine ⟨Nat.mod_lt _ (by decide), fun t ht => ?_⟩
  rw [State.timers_advance] at ht
  obtain ⟨u, hu, rfl⟩ := List.mem_map.mp ht
  unfold State.mayRun at hn
  rcases Bool.or_eq_true _ _ ▸ hn with h0 | h1
  · rw [beq_iff_eq] at h0
    subst h0
    exact h.2 u hu
  · exact of_decide_eq_true (List.all_eq_true.mp h1 u hu)

/-! ### Keyed stores -/

theorem Table.find_put {α : Type} (k m : Nat) (v : α) (t : Table α) :
    Table.find m (Table.put k v t) = if m = k then some v else Table.find m t := by
  induction t with
  | nil =>
    by_cases h : m = k
    · subst h; simp [Table.put, Table.find]
    · have : ¬ k = m := fun e => h e.symm
      simp [Table.put, Table.find, h, this]
  | cons e t ih =>
    obtain ⟨j, w⟩ := e
    simp only [Table.put]
    split
    · by_cases h : m = k
      · subst h; simp [Table.find]
      · have : ¬ k = m := fun e => h e.symm
        simp [Table.find, h, this]
    · split
      · rename_i h1 h2
        subst h2
        by_cases h : m = k
        · subst h; simp [Table.find]
        · have : ¬ k = m := fun e => h e.symm
          simp [Table.find, h, this]
      · rename_i h1 h2
        by_cases h : m = k
        · subst h
          have : ¬ j = m := fun e => h2 e.symm
          simp [Table.find, this, ih]
        · simp [Table.find, ih, h]

theorem Table.find_drop {α : Type} (k m : Nat) (t : Table α) :
    Table.find m (Table.drop k t) = if m = k then none else Table.find m t := by
  induction t with
  | nil => simp [Table.drop, Table.find]
  | cons e t ih =>
    obtain ⟨j, w⟩ := e
    unfold Table.drop at *
    by_cases hj : j = k
    · subst hj
      by_cases h : m = j
      · subst h; simpa [Table.find] using ih
      · have : ¬ j = m := fun e => h e.symm
        simpa [Table.find, h, this] using ih
    · by_cases h : m = k
      · subst h
        simp [Table.find, hj]
        simpa using ih
      · by_cases h2 : j = m
        · subst h2; simp [Table.find, hj]
        · simp [Table.find, hj, h2, h]
          simpa [h] using ih

theorem Table.mem_put {α : Type} (k : Nat) (v : α) (t : Table α) (e : Nat × α) (h : e ∈ Table.put k v t) :
    e = (k, v) ∨ e ∈ t := by
  induction t with
  | nil => simpa [Table.put] using h
  | cons d t ih =>
    obtain ⟨j, w⟩ := d
    simp only [Table.put] at h
    split at h
    · simp only [List.mem_cons] at h ⊢; tauto
    · split at h
      · simp only [List.mem_cons] at h ⊢; tauto
      · simp only [List.mem_cons] at h ⊢
        rcases h with h | h
        · tauto
        · rcases ih h with h | h <;> tauto

theorem Table.wf_put {α : Type} (k : Nat) (v : α) (t : Table α) (h : Table.wf t) : Table.wf (Table.put k v t) := by
  induction t with
  | nil => simp [Table.put, Table.wf]
  | cons d t ih =>
    obtain ⟨j, w⟩ := d
    unfold Table.wf at h ih ⊢
    rw [List.pairwise_cons] at h
    simp only [Table.put]
    split
    · rename_i hk
      rw [List.pairwise_cons, List.pairwise_cons]
      refine ⟨fun e he => ?_, h⟩
      rcases List.mem_cons.1 he with rfl | he
      · exact hk
      · exact lt_trans hk (h.1 e he)
    · split
      · rename_i _ hk
        subst hk
        exact List.pairwise_cons.2 ⟨h.1, h.2⟩
      · rename_i h1 h2
        refine List.pairwise_cons.2 ⟨fun e he => ?_, ih h.2⟩
        rcases Table.mem_put k v t e he with rfl | he
        · show j < k
          omega
        · exact h.1 e he

theorem Table.wf_drop {α : Type} (k : Nat) (t : Table α) (h : Table.wf t) : Table.wf (Table.drop k t) :=
  List.Pairwise.filter _ h

theorem Table.wf_map {α : Type} (f : Nat × α → Nat × α) (hf : ∀ e, (f e).1 = e.1) (t : Table α) (h : Table.wf t) :
    Table.wf (t.map f) := by
  unfold Table.wf at *
  rw [List.pairwise_map]
  exact h.imp (fun {a b} hab => by rw [hf, hf]; exact hab)

/-! ### Requests -/

@[simp] theorem State.reply_answered (s : State) (r : Request) (a : Answer) :
    State.reply r.tag (a, s.setLink s.link.popIntake) = s.answered r a := rfl

/-- An execution of a request that passes the general checks. -/
theorem State.execute_serves (s : State) (c : ReqCode) (r : Request) (fs : List Field)
    (own : List Field → State → Answer × State) (h : Serves s c r fs) :
    s.execute c own = State.reply r.tag (own fs (s.setLink s.link.popIntake)) := by
  unfold State.execute State.serve
  rw [h.1]
  have : (s.setLink s.link.popIntake).link.session = s.link.session := rfl
  simp only [this, h.2]

end Sys2Proof.Machine
end

