-- ==== Sys2Proof/Laws/Controller.lean ====
section
/-! SUPPORT. What an Axis Controller may do to its axis: its operations leave configuration, pins, Counting Unit, Capture
Log and claims in flight alone, and take no order into the move queue. -/

namespace Sys2Proof.Machine

/-- Two states of an axis between which its Axis Controller has acted, taking no new order. -/
structure Axis.Acts (x y : Axis) : Prop extends Axis.Controlled x y where
  orders : y.moveQueue.Sublist x.moveQueue

theorem Axis.Acts.refl (x : Axis) : x.Acts x := ⟨⟨rfl, rfl, rfl, rfl, rfl, rfl⟩, List.Sublist.refl _⟩

theorem Axis.Acts.trans {x y z : Axis} (h : x.Acts y) (k : y.Acts z) : x.Acts z :=
  ⟨⟨k.config.trans h.config, k.pins.trans h.pins, k.counting.trans h.counting, k.claims.trans h.claims,
    k.faultClaims.trans h.faultClaims, k.log.trans h.log⟩, k.orders.trans h.orders⟩

/-- An axis whose orders are those of another with the given motion state and queue. -/
theorem Axis.acts_of {x y : Axis} (hc : y.config = x.config) (hp : y.pins = x.pins) (hn : y.counting = x.counting)
    (hl : y.claims = x.claims) (hf : y.faultClaims = x.faultClaims) (hg : y.log = x.log)
    (ho : y.moveQueue.Sublist x.moveQueue) : x.Acts y := ⟨⟨hc, hp, hn, hl, hf, hg⟩, ho⟩

theorem Axis.moveQueue_moving {x : Axis} {o : ActiveOrder} (h : x.motion = .moving o) :
    x.moveQueue = o.order :: x.queue := by
  unfold Axis.moveQueue; rw [h]

/-- The orders of an axis: the active one, if any, and those that wait. -/
theorem Axis.moveQueue_eq (x : Axis) : x.moveQueue = (x.motion.active.map (·.order)).toList ++ x.queue := by
  unfold Axis.moveQueue Motion.active
  cases x.motion <;> rfl

theorem Axis.acts_turnOff (now : Time) (x : Axis) : x.Acts (x.turnOff now) := by
  refine Axis.acts_of ?_ ?_ ?_ ?_ ?_ ?_ ?_ <;> simp [Axis.moveQueue_eq]

theorem Axis.acts_setHigh (b : Bool) (x : Axis) : x.Acts (x.setHigh b) := by
  refine Axis.acts_of ?_ ?_ ?_ ?_ ?_ ?_ ?_ <;> simp [Axis.moveQueue_eq]

theorem Axis.acts_endLockout (x : Axis) : x.Acts x.endLockout := by
  refine Axis.acts_of ?_ ?_ ?_ ?_ ?_ ?_ ?_ <;> simp [Axis.moveQueue_eq]

/-- A motion state without an active order leaves the waiting orders at most. -/
theorem Axis.acts_motion (x : Axis) (m : Motion) (b : Bool) (st : Option Timer) (hm : m.active = none) :
    x.Acts { x with stall := st, motion := m, holdPending := b } := by
  refine Axis.acts_of rfl rfl rfl rfl rfl rfl ?_
  simp [Axis.moveQueue_eq, hm]

/-- The active order goes on with a changed record. -/
theorem Axis.acts_moving (x : Axis) (o : ActiveOrder) (h : x.motion.active.map (·.order) = some o.order) :
    x.Acts { x with motion := .moving o } := by
  refine Axis.acts_of rfl rfl rfl rfl rfl rfl ?_
  rw [Axis.moveQueue_eq, Axis.moveQueue_eq, h]
  exact List.Sublist.refl _

theorem Reason.motionAfter_active (r : Reason) : r.motionAfter.active = Option.none := by
  unfold Reason.motionAfter; split <;> rfl

theorem ActiveOrder.motionAfter_active (o : ActiveOrder) (r : Reason) (b : Bool) :
    (o.motionAfter r b).active = Option.none := by
  unfold ActiveOrder.motionAfter; split
  · split <;> rfl
  · exact r.motionAfter_active

theorem Axis.acts_endOrder (a : AxisId) (now : Time) (o : ActiveOrder) (why : Reason) (x : Axis) :
    x.Acts (x.endOrder a now o why).1 :=
  (x.acts_turnOff now).trans ((x.turnOff now).acts_motion _ _ _ (ActiveOrder.motionAfter_active ..))

theorem Axis.acts_failHoming (a : AxisId) (now : Time) (why : Reason) (x : Axis) : x.Acts (x.failHoming a now why).1 :=
  (x.acts_turnOff now).trans ((x.turnOff now).acts_motion _ _ _ why.motionAfter_active)

theorem Axis.acts_endJog (a : AxisId) (now : Time) (why : Reason) (x : Axis) : x.Acts (x.endJog a now why).1 :=
  (x.acts_turnOff now).trans ((x.turnOff now).acts_motion _ _ _ why.motionAfter_active)

theorem Axis.acts_endOperation (a : AxisId) (now : Time) (why : Reason) (x : Axis) :
    x.Acts (x.endOperation a now why).1 := by
  unfold Axis.endOperation
  split
  · exact x.acts_endOrder ..
  · exact x.acts_failHoming ..
  · exact x.acts_endJog ..
  all_goals exact Axis.Acts.refl x

theorem Axis.acts_takeFault (a : AxisId) (now : Time) (k : FaultKind) (x : Axis) : x.Acts (x.takeFault a now k).1 :=
  (x.acts_endOperation a now k.reason).trans (Axis.acts_motion _ _ _ _ rfl)

/-! ### The approach engine keeps the active order -/

theorem ActiveOrder.report_order (a : AxisId) (z : Zone) (o : ActiveOrder) : (o.report a z).1.order = o.order := by
  unfold ActiveOrder.report; split <;> rfl

/-- The order of an axis while it is MOVING. -/
abbrev Axis.runs (x : Axis) (o : Order) : Prop := x.motion.active.map (·.order) = some o

theorem Axis.acts_enterSettle (a : AxisId) (o : ActiveOrder) (x : Axis) (h : x.runs o.order) :
    x.Acts (x.enterSettle a o).1 := by
  refine Axis.acts_moving x _ ?_
  rw [h]; exact congrArg some (o.report_order ..).symm

theorem Axis.acts_enterCoast (a : AxisId) (o : ActiveOrder) (x : Axis) (h : x.runs o.order) :
    x.Acts (x.enterCoast a o).1 := by
  refine Axis.acts_moving x _ ?_
  rw [h]
  split
  · exact congrArg some (o.report_order ..).symm
  · rfl

theorem Axis.acts_beginLeg (a : AxisId) (now : Time) (l : Dir → Bool) (o : ActiveOrder) (d : Dir) (b : Bool)
    (sub : Substate) (x : Axis) (h : x.runs o.order) : x.Acts (x.beginLeg a now l o d b sub).1 := by
  unfold Axis.beginLeg
  split
  · exact x.acts_endOrder ..
  split
  · exact x.acts_moving _ h
  · refine Axis.acts_of rfl rfl rfl rfl rfl rfl ?_
    rw [Axis.moveQueue_eq, Axis.moveQueue_eq, h]
    have : ∀ p : ActiveOrder × List NoticeBody, p.1.order = o.order →
        (match sub with | .slow _ => o.report a .slowEntered | _ => (o, [])) = p →
        (Motion.active (.moving { p.1 with substate := sub, leg := some o.dir })).map (·.order) = some o.order := by
      intro p hp _
      exact congrArg some hp
    cases sub <;> simp [Motion.active, ActiveOrder.report_order]

theorem Axis.acts_legStart (a : AxisId) (now : Time) (l : Dir → Bool) (p : Int) (o : ActiveOrder) (x : Axis)
    (h : x.runs o.order) : x.Acts (x.legStart a now l p o).1 := by
  unfold Axis.legStart
  dsimp only
  split
  · exact x.acts_enterSettle a _ h
  · exact x.acts_beginLeg a now l _ _ _ _ h

theorem Axis.runs_turnOff (now : Time) (x : Axis) (o : Order) (h : x.runs o) : (x.turnOff now).runs o := by
  simpa [Axis.runs] using h

theorem Axis.runs_setHigh (b : Bool) (x : Axis) (o : Order) (h : x.runs o) : (x.setHigh b).runs o := by
  simpa [Axis.runs] using h

theorem Axis.acts_cut (a : AxisId) (now : Time) (o : ActiveOrder) (x : Axis) (h : x.runs o.order) :
    x.Acts (x.cut a now o).1 := by
  unfold Axis.cut
  dsimp only
  have h' : (x.turnOff now).runs (o.report a .cutEntered).1.order := by
    rw [o.report_order]; exact x.runs_turnOff now _ h
  split
  · exact (x.acts_turnOff now).trans (Axis.acts_enterSettle a _ _ h')
  · exact (x.acts_turnOff now).trans (Axis.acts_enterCoast a _ _ h')

theorem Axis.acts_slowMoved (a : AxisId) (now : Time) (k : LegKind) (o : ActiveOrder) (x : Axis) (h : x.runs o.order) :
    x.Acts (x.slowMoved a now k o).1 := by
  unfold Axis.slowMoved
  split
  · split
    · exact x.acts_cut a now o h
    · exact x.acts_moving _ h
  · split
    · exact (x.acts_turnOff now).trans (Axis.acts_enterSettle a _ _ (x.runs_turnOff now _ h))
    · exact x.acts_moving _ h

theorem Axis.acts_fastMoved (a : AxisId) (now : Time) (o : ActiveOrder) (x : Axis) (h : x.runs o.order) :
    x.Acts (x.fastMoved a now o).1 := by
  unfold Axis.fastMoved
  split
  · refine (x.acts_setHigh false).trans (Axis.acts_slowMoved a now _ _ _ ?_)
    rw [o.report_order]; exact x.runs_setHigh _ _ h
  · exact x.acts_moving _ h

theorem Axis.acts_takeupMoved (a : AxisId) (now : Time) (l : Dir → Bool) (o : ActiveOrder) (x : Axis)
    (h : x.runs o.order) : x.Acts (x.takeupMoved a now l o).1 := by
  unfold Axis.takeupMoved
  split
  · exact (x.acts_turnOff now).trans (Axis.acts_legStart a now l _ o _ (x.runs_turnOff now _ h))
  split
  · exact (x.acts_setHigh false).trans (Axis.acts_moving _ _ (x.runs_setHigh _ _ h))
  · exact x.acts_moving _ h

theorem Axis.acts_coastMoved (a : AxisId) (o : ActiveOrder) (x : Axis) (h : x.runs o.order) :
    x.Acts (x.coastMoved a o).1 := by
  unfold Axis.coastMoved
  split
  · exact x.acts_enterSettle a o h
  split
  · refine x.acts_moving _ ?_
    rw [o.report_order]; exact h
  · exact x.acts_moving _ h

theorem Axis.acts_settleMoved (a : AxisId) (o : ActiveOrder) (x : Axis) (h : x.runs o.order) :
    x.Acts (x.settleMoved a o).1 := by
  unfold Axis.settleMoved
  split
  · exact x.acts_moving _ h
  · exact x.acts_enterCoast a o h

theorem Axis.acts_positionMoved (a : AxisId) (now : Time) (l : Dir → Bool) (d : Dir) (x : Axis) :
    x.Acts (x.positionMoved a now l d).1 := by
  unfold Axis.positionMoved
  split
  · rename_i o h
    have hr : x.runs o.order := by simp [Axis.runs, h, Motion.active]
    dsimp only
    split
    · exact x.acts_takeupMoved a now l _ hr
    · exact x.acts_fastMoved a now _ hr
    · exact x.acts_slowMoved a now _ _ hr
    · exact x.acts_coastMoved a _ hr
    · exact x.acts_settleMoved a _ hr
    · exact x.acts_moving _ hr
  all_goals exact Axis.Acts.refl x

theorem Axis.acts_countEvent (x : Axis) : x.Acts x.countEvent := by
  unfold Axis.countEvent
  dsimp only
  have h0 : x.Acts x.restartStall := Axis.acts_of rfl rfl rfl rfl rfl rfl (by simp [Axis.moveQueue_eq])
  split
  · rename_i o h
    split
    · exact h0.trans (Axis.acts_moving _ _ (by rw [h]; rfl))
    all_goals exact h0
  all_goals exact h0

theorem Axis.acts_judgeRest (a : AxisId) (now : Time) (l : Dir → Bool) (o : ActiveOrder) (x : Axis)
    (h : x.runs o.order) : x.Acts (x.judgeRest a now l o).1 := by
  unfold Axis.judgeRest
  split
  · exact Axis.Acts.refl x
  split
  · exact x.acts_legStart a now l _ _ h
  · exact x.acts_endOrder ..

/-! ### Homing, jog, claims -/

theorem Axis.acts_turnOn (d : Dir) (b : Bool) (x : Axis) : x.Acts (x.turnOn d b) :=
  Axis.acts_of rfl rfl rfl rfl rfl rfl (by simp [Axis.moveQueue_eq])

theorem Axis.acts_askFor (d : Dir) (b : Bool) (x : Axis) : x.Acts (x.askFor d b) := by
  unfold Axis.askFor
  split
  · split
    · exact x.acts_turnOn d b
    · exact Axis.Acts.refl x
  · exact Axis.Acts.refl x

theorem Axis.acts_bringLines (now : Time) (h : Homing) (x : Axis) : x.Acts (x.bringLines now h) := by
  unfold Axis.bringLines
  split
  · split
    · exact x.acts_setHigh _
    · exact (x.acts_turnOff now).trans (Axis.acts_askFor ..)
  · exact Axis.Acts.refl x

theorem Axis.acts_homingGoes (now : Time) (h : Homing) (x : Axis) : x.Acts (x.homingGoes now h).1 :=
  Axis.Acts.trans (y := { x with motion := .homing h })
    (Axis.acts_of rfl rfl rfl rfl rfl rfl (by simp [Axis.moveQueue_eq, Motion.active])) (Axis.acts_bringLines ..)

theorem Axis.acts_endHoming (a : AxisId) (now : Time) (datum : Int) (x : Axis) :
    x.Acts (x.endHoming a now datum).1 := by
  refine (x.acts_turnOff now).trans (Axis.acts_motion _ _ _ _ ?_)
  split <;> rfl

theorem Axis.acts_askJog (j : Jog) (x : Axis) : x.Acts (x.askJog j) := by
  unfold Axis.askJog
  split <;> exact Axis.acts_of rfl rfl rfl rfl rfl rfl (by simp [Axis.moveQueue_eq, Motion.active])

theorem Axis.acts_jog (now : Time) (d : Dir) (sp : Speed) (n : Nat) (x : Axis) : x.Acts (x.jog now d sp n) := by
  unfold Axis.jog
  split
  · unfold Axis.changeJog
    dsimp only
    split
    · split
      · exact Axis.acts_of rfl rfl rfl rfl rfl rfl (by simp [Axis.moveQueue_eq, Motion.active])
      · exact (x.acts_setHigh _).trans
          (Axis.acts_of rfl rfl rfl rfl rfl rfl (by simp [Axis.moveQueue_eq, Motion.active]))
    · split
      · exact x.acts_askJog _
      · exact (x.acts_turnOff now).trans (Axis.acts_askJog ..)
  all_goals exact x.acts_askJog _

theorem Axis.acts_jogNone (a : AxisId) (now : Time) (x : Axis) : x.Acts (x.jogNone a now).1 := by
  unfold Axis.jogNone
  split
  · exact x.acts_endJog ..
  all_goals exact Axis.Acts.refl x

theorem Axis.acts_lockoutExpired (a : AxisId) (now : Time) (l : Dir → Bool) (x : Axis) :
    x.Acts (x.lockoutExpired a now l).1 := by
  unfold Axis.lockoutExpired
  dsimp only
  refine x.acts_endLockout.trans ?_
  split
  · rename_i o h
    split
    · exact Axis.acts_legStart a now l _ o _ (by unfold Axis.runs; rw [h]; rfl)
    all_goals exact Axis.Acts.refl _
  · exact Axis.acts_bringLines ..
  · split
    · exact Axis.acts_askJog ..
    · exact Axis.Acts.refl _
  all_goals exact Axis.Acts.refl _

theorem Axis.acts_holdQueue (x : Axis) : x.Acts x.holdQueue := by
  unfold Axis.holdQueue
  split
  · exact x.acts_motion .held false x.stall rfl
  · exact Axis.Acts.refl x

theorem Axis.acts_linkLost (a : AxisId) (now : Time) (x : Axis) : x.Acts (x.linkLost a now).1 :=
  (x.acts_endOperation a now .linkLost).trans (Axis.acts_holdQueue _)

theorem Axis.acts_halt (a : AxisId) (now : Time) (x : Axis) : x.Acts (x.halt a now).1 := by
  unfold Axis.halt
  split
  · exact x.acts_endOperation ..
  · exact x.acts_endOperation ..
  · exact x.acts_endOperation ..
  · exact x.acts_motion .held false x.stall rfl
  · exact x.acts_motion .held false x.stall rfl
  · exact x.acts_motion .held false x.stall rfl
  · exact Axis.acts_of rfl rfl rfl rfl rfl rfl (by simp [Axis.moveQueue_eq])

theorem Axis.acts_flush (a : AxisId) (x : Axis) : x.Acts (x.flush a).1 :=
  Axis.acts_of rfl rfl rfl rfl rfl rfl (by simp [Axis.flush, Axis.moveQueue_eq])

theorem Axis.acts_stop (a : AxisId) (now : Time) (b : Bool) (x : Axis) : x.Acts (x.stop a now b).1 := by
  unfold Axis.stop
  dsimp only
  split
  · exact (x.acts_halt a now).trans (Axis.acts_flush ..)
  · exact x.acts_halt a now

theorem Axis.acts_takeStop (a : AxisId) (now : Time) (x : Axis) : x.Acts (x.takeStop a now).1 := by
  unfold Axis.takeStop
  split
  · exact x.acts_endOrder ..
  · exact x.acts_failHoming ..
  all_goals exact Axis.Acts.refl x

theorem Axis.acts_takeLimit (a : AxisId) (now : Time) (d : Dir) (x : Axis) : x.Acts (x.takeLimit a now d).1 := by
  unfold Axis.takeLimit
  split
  · split
    · exact x.acts_endOrder ..
    · exact Axis.Acts.refl x
  · split
    · exact x.acts_endJog ..
    · exact Axis.Acts.refl x
  all_goals exact Axis.Acts.refl x

theorem Axis.acts_takeRelease (x : Axis) : x.Acts x.takeRelease.1 := by
  unfold Axis.takeRelease
  split
  · exact x.acts_motion .idle x.holdPending x.stall rfl
  · exact Axis.Acts.refl x

theorem Axis.acts_cancelTag (a : AxisId) (now : Time) (n : Nat) (x : Axis) : x.Acts (x.cancelTag a now n).1 := by
  unfold Axis.cancelTag
  split
  · split
    · exact x.acts_endOrder ..
    · refine Axis.acts_of rfl rfl rfl rfl rfl rfl ?_
      rw [Axis.moveQueue_eq, Axis.moveQueue_eq]
      exact (List.Sublist.refl _).append (List.filter_sublist ..)
  · rename_i h
    refine Axis.acts_of rfl rfl rfl rfl rfl rfl ?_
    rw [Axis.moveQueue_eq, Axis.moveQueue_eq]
    have : (x.motion.afterRemoval (x.queue.filter (fun e => e.tag != n))).active = none := by
      unfold Motion.afterRemoval; split
      · rfl
      · exact h
    simp only [this, h]
    exact (List.Sublist.refl _).append (List.filter_sublist ..)

theorem Axis.acts_cancelAll (a : AxisId) (now : Time) (x : Axis) : x.Acts (x.cancelAll a now).1 := by
  unfold Axis.cancelAll
  dsimp only
  have key : ∀ y : Axis, x.Acts y → x.Acts { y with queue := [], motion := y.motion.afterRemoval [] } := by
    intro y hy
    refine hy.trans (Axis.acts_of rfl rfl rfl rfl rfl rfl ?_)
    rw [Axis.moveQueue_eq, Axis.moveQueue_eq]
    have : (y.motion.afterRemoval []).active = y.motion.active := by
      unfold Motion.afterRemoval; split
      · rename_i h; rw [h.1]; rfl
      · rfl
    simp only [this]
    exact (List.Sublist.refl _).append (List.nil_sublist _)
  split
  · exact key _ (x.acts_endOrder ..)
  all_goals exact key _ (Axis.Acts.refl x)

theorem Axis.acts_takeStart (a : AxisId) (now : Time) (t : TableStore) (g : Bool) (l : Dir → Bool) (x : Axis) :
    x.Acts (x.takeStart a now t g l).1 := by
  unfold Axis.takeStart
  split
  · rename_i o rest hm hq
    have hx : x.moveQueue = o :: rest := by rw [Axis.moveQueue_eq, hm, hq]; rfl
    split
    · exact x.acts_motion .waiting x.holdPending x.stall rfl
    · refine Axis.acts_of rfl rfl rfl rfl rfl rfl ?_
      rw [hx, Axis.moveQueue_eq]
      exact List.sublist_cons_self ..
    · exact Axis.Acts.refl x
    · refine Axis.Acts.trans ?_ (Axis.acts_legStart a now (fun _ => false) _ _ _ (by rfl))
      refine Axis.acts_of rfl rfl rfl rfl rfl rfl ?_
      rw [hx, Axis.moveQueue_eq]
      exact List.Sublist.refl _
  · exact Axis.Acts.refl x

end Sys2Proof.Machine
end

