-- ==== Sys2Proof/Laws/Lines.lean ====
section
/-! SUPPORT. The operations of an Axis Controller keep the line pattern that goes with the motion state (`Axis.LinesOk`):
one lemma per operation. -/

namespace Sys2Proof.Machine

/-- An axis whose lines are off, as its motion state has them. -/
theorem Axis.linesOk_off {x : Axis} (hl : x.lines = .off) (hs : x.stall = none) (hm : x.motion.linesFit .off)
    (hw : x.driven = false → x.queue = [] ∧ x.motion.watchedState) : x.LinesOk where
  fit := by rw [hl]; exact hm
  permitted := by intro d h e; rw [hl] at e; cases e
  stall := fun _ => hs
  watched := fun h => ⟨hl, hw h⟩

/-- A DRIVEN axis with a RUN line on, as its motion state has it. -/
theorem Axis.linesOk_run {x : Axis} {d : Dir} {h : Bool} (hl : x.lines = .run d h) (hm : x.motion.linesFit (.run d h))
    (hp : x.permits d = true) (hd : x.driven = true) : x.LinesOk where
  fit := by rw [hl]; exact hm
  permitted := by intro e g he; rw [hl] at he; cases he; exact hp
  stall := by intro e; rw [hl] at e; cases e
  watched := by intro e; rw [hd] at e; cases e

/-- The lockout question asked of an axis and answered. -/
theorem Axis.permits_of_not {x : Axis} {d : Dir} (h : ¬ (!x.permits d) = true) : x.permits d = true := by
  simpa using h

/-- The lines are off in every motion state without a RUN line. -/
theorem Axis.LinesOk.off_of {x : Axis} (h : x.LinesOk) (hm : x.motion.inMotion = false) : x.lines = .off := by
  have := h.fit
  cases e : x.motion <;> rw [e] at this hm <;> first | exact this | cases hm

theorem Axis.LinesOk.driven_moving {x : Axis} (h : x.LinesOk) {o : ActiveOrder} (hm : x.motion = .moving o) :
    x.driven = true := by
  cases e : x.driven
  · have := (h.watched e).2.2; rw [hm] at this; exact this.elim
  · rfl

theorem Axis.driven_of_config {x y : Axis} (h : y.config = x.config) : y.driven = x.driven := by
  unfold Axis.driven; rw [h]

theorem Axis.turnOff_stall {now : Time} {x : Axis} (h : x.LinesOk) : (x.turnOff now).stall = none := by
  cases e : x.lines
  · rw [x.turnOff_of_off now e]; exact h.stall e
  · rw [x.turnOff_of_run now _ _ e]

/-- Lines off, and a motion state that stands still. -/
theorem Axis.linesOk_still (now : Time) {x : Axis} (h : x.LinesOk) (m : Motion) (b : Bool)
    (hm : m = .idle ∨ m = .held ∨ m = .faulted) :
    ({ x.turnOff now with stall := none, motion := m, holdPending := b } : Axis).LinesOk := by
  refine Axis.linesOk_off (x.turnOff_lines now) rfl ?_ ?_
  · rcases hm with rfl | rfl | rfl <;> rfl
  · intro hd
    refine ⟨?_, by rcases hm with rfl | rfl | rfl <;> exact trivial⟩
    show (x.turnOff now).queue = []
    rw [x.turnOff_queue]
    exact (h.watched (by rw [← hd]; exact (Axis.driven_of_config (by simp)))).2.1

theorem Reason.motionAfter_still (r : Reason) :
    r.motionAfter = .idle ∨ r.motionAfter = .held ∨ r.motionAfter = .faulted := by
  unfold Reason.motionAfter; split <;> simp

theorem ActiveOrder.motionAfter_still (o : ActiveOrder) (r : Reason) (b : Bool) :
    o.motionAfter r b = .idle ∨ o.motionAfter r b = .held ∨ o.motionAfter r b = .faulted := by
  unfold ActiveOrder.motionAfter
  split
  · split <;> simp
  · exact r.motionAfter_still

theorem Axis.linesOk_endOrder {a : AxisId} {now : Time} {o : ActiveOrder} {why : Reason} {x : Axis} (h : x.LinesOk) :
    (x.endOrder a now o why).1.LinesOk := Axis.linesOk_still now h _ _ (o.motionAfter_still why _)

theorem Axis.linesOk_failHoming {a : AxisId} {now : Time} {why : Reason} {x : Axis} (h : x.LinesOk) :
    (x.failHoming a now why).1.LinesOk := Axis.linesOk_still now h _ _ why.motionAfter_still

theorem Axis.linesOk_endJog {a : AxisId} {now : Time} {why : Reason} {x : Axis} (h : x.LinesOk) :
    (x.endJog a now why).1.LinesOk := Axis.linesOk_still now h _ _ why.motionAfter_still

theorem Axis.linesOk_endOperation {a : AxisId} {now : Time} {why : Reason} {x : Axis} (h : x.LinesOk) :
    (x.endOperation a now why).1.LinesOk := by
  unfold Axis.endOperation
  split
  · exact Axis.linesOk_endOrder h
  · exact Axis.linesOk_failHoming h
  · exact Axis.linesOk_endJog h
  all_goals exact h

/-- After the end of whatever operation was in flight the lines are off. -/
theorem Axis.endOperation_off {a : AxisId} {now : Time} {why : Reason} {x : Axis} (h : x.LinesOk) :
    (x.endOperation a now why).1.lines = .off ∧ (x.endOperation a now why).1.stall = none := by
  unfold Axis.endOperation
  split
  · exact ⟨x.turnOff_lines now, rfl⟩
  · exact ⟨x.turnOff_lines now, rfl⟩
  · exact ⟨x.turnOff_lines now, rfl⟩
  all_goals
    rename_i e
    have := h.off_of (by rw [e]; rfl)
    exact ⟨this, h.stall this⟩

/-- A change of motion state and flag with the lines off. -/
theorem Axis.linesOk_stand {x : Axis} (h : x.LinesOk) (hl : x.lines = .off) (m : Motion) (b : Bool)
    (hm : m = .idle ∨ m = .held ∨ m = .faulted) : ({ x with motion := m, holdPending := b } : Axis).LinesOk := by
  refine Axis.linesOk_off hl (h.stall hl) ?_ ?_
  · rcases hm with rfl | rfl | rfl <;> rfl
  · intro hd
    exact ⟨(h.watched hd).2.1, by rcases hm with rfl | rfl | rfl <;> exact trivial⟩

theorem Axis.linesOk_takeFault {a : AxisId} {now : Time} {k : FaultKind} {x : Axis} (h : x.LinesOk) :
    (x.takeFault a now k).1.LinesOk :=
  Axis.linesOk_stand (Axis.linesOk_endOperation h) (Axis.endOperation_off h).1 _ _ (by simp)

/-! ### The approach engine -/

theorem ActiveOrder.report_dir (a : AxisId) (z : Zone) (o : ActiveOrder) : (o.report a z).1.dir = o.dir := by
  unfold ActiveOrder.report; split <;> rfl

/-- A DRIVEN axis with its lines off, in a substate that has them off. -/
theorem Axis.linesOk_movingOff {x : Axis} {o : ActiveOrder} (hl : x.lines = .off) (hs : x.stall = none)
    (hd : x.driven = true) (hf : o.linesFit .off) : ({ x with motion := .moving o } : Axis).LinesOk :=
  Axis.linesOk_off hl hs hf (by intro e; rw [show x.driven = false from e] at hd; cases hd)

theorem Axis.linesOk_enterSettle {a : AxisId} {o : ActiveOrder} {x : Axis} (hl : x.lines = .off) (hs : x.stall = none)
    (hd : x.driven = true) : (x.enterSettle a o).1.LinesOk := Axis.linesOk_movingOff hl hs hd rfl

theorem Axis.linesOk_enterCoast {a : AxisId} {o : ActiveOrder} {x : Axis} (hl : x.lines = .off) (hs : x.stall = none)
    (hd : x.driven = true) : (x.enterCoast a o).1.LinesOk := Axis.linesOk_movingOff hl hs hd rfl

theorem Axis.linesOk_beginLeg {a : AxisId} {now : Time} {l : Dir → Bool} {o : ActiveOrder} {d : Dir} {b : Bool}
    {sub : Substate} {x : Axis} (h : x.LinesOk) (hl : x.lines = .off) (hd : x.driven = true)
    (hf : ∀ p : ActiveOrder, p.dir = o.dir → ({ p with substate := sub, leg := some o.dir } : ActiveOrder).linesFit (.run d b)) :
    (x.beginLeg a now l o d b sub).1.LinesOk := by
  unfold Axis.beginLeg
  split
  · exact Axis.linesOk_endOrder h
  split
  · exact Axis.linesOk_movingOff hl (h.stall hl) hd rfl
  · rename_i hp
    refine Axis.linesOk_run (d := d) (h := b) rfl ?_ (Axis.permits_of_not hp) hd
    refine hf _ ?_
    split
    · exact o.report_dir ..
    · rfl

/-- The leg of a leg start fits the lines it turns on (R83, R84, table 5-1). -/
theorem planLeg_fits {kind : AxisKind} {pr : Profile} {n : Nat} {aim : Aim} {d : Dir} {b : Bool} {sub : Substate}
    (h : planLeg kind pr n aim = .run d b sub) (p : ActiveOrder) (hp : p.dir = aim.dir) (g : Option Dir) :
    ({ p with substate := sub, leg := g } : ActiveOrder).linesFit (.run d b) := by
  unfold planLeg at h
  split at h
  · cases h
  split at h
  · cases h; simp [ActiveOrder.linesFit, Lines.dir, hp]
  split at h
  · cases h; simp [ActiveOrder.linesFit, hp]
  split at h
  · cases h; simp [ActiveOrder.linesFit, hp]
  · cases h; simp [ActiveOrder.linesFit, hp]

theorem Axis.linesOk_legStart {a : AxisId} {now : Time} {l : Dir → Bool} {p : Int} {o : ActiveOrder} {x : Axis}
    (h : x.LinesOk) (hl : x.lines = .off) (hd : x.driven = true) : (x.legStart a now l p o).1.LinesOk := by
  unfold Axis.legStart
  dsimp only
  split
  · exact Axis.linesOk_enterSettle hl (h.stall hl) hd
  · rename_i e
    exact Axis.linesOk_beginLeg h hl hd (fun q hq => planLeg_fits e q hq _)

/-- Turning off with the motion state kept leaves an axis that has its lines off. -/
theorem Axis.turnOff_off {now : Time} {x : Axis} (h : x.LinesOk) (hd : x.driven = true) :
    (x.turnOff now).lines = .off ∧ (x.turnOff now).stall = none ∧ (x.turnOff now).driven = true :=
  ⟨x.turnOff_lines now, Axis.turnOff_stall h, by rw [Axis.driven_of_config (x.turnOff_config now)]; exact hd⟩

theorem Axis.linesOk_cut {a : AxisId} {now : Time} {o : ActiveOrder} {x : Axis} (h : x.LinesOk) (hd : x.driven = true) :
    (x.cut a now o).1.LinesOk := by
  obtain ⟨h1, h2, h3⟩ := Axis.turnOff_off (now := now) h hd
  unfold Axis.cut
  dsimp only
  split
  · exact Axis.linesOk_enterSettle h1 h2 h3
  · exact Axis.linesOk_enterCoast h1 h2 h3

/-- The order of a MOVING axis goes on with the same lines. -/
theorem Axis.linesOk_goesOn {x : Axis} (h : x.LinesOk) (hd : x.driven = true) {o : ActiveOrder}
    (hf : o.linesFit x.lines) : ({ x with motion := .moving o } : Axis).LinesOk where
  fit := hf
  permitted := h.permitted
  stall := h.stall
  watched := by intro e; rw [show x.driven = false from e] at hd; cases hd

theorem Axis.linesOk_slowMoved {a : AxisId} {now : Time} {k : LegKind} {o : ActiveOrder} {x : Axis} (h : x.LinesOk)
    (hd : x.driven = true) (hf : x.lines = .run o.dir false) : (x.slowMoved a now k o).1.LinesOk := by
  obtain ⟨h1, h2, h3⟩ := Axis.turnOff_off (now := now) h hd
  unfold Axis.slowMoved
  split
  · split
    · exact Axis.linesOk_cut h hd
    · exact Axis.linesOk_goesOn h hd hf
  · split
    · exact Axis.linesOk_enterSettle h1 h2 h3
    · exact Axis.linesOk_goesOn h hd hf

/-- A speed change of an axis whose lines fit with the new speed. -/
theorem Axis.linesOk_setHigh {x : Axis} (h : x.LinesOk) (hd : x.driven = true) {d : Dir} {b c : Bool}
    (hl : x.lines = .run d c) {m : Motion} (hf : m.linesFit (.run d b)) :
    ({ x.setHigh b with motion := m } : Axis).LinesOk := by
  rw [x.setHigh_of_run b d c hl]
  exact Axis.linesOk_run (d := d) (h := b) rfl hf (h.permitted d c hl) hd

theorem Axis.linesOk_fastMoved {a : AxisId} {now : Time} {o : ActiveOrder} {x : Axis} (h : x.LinesOk)
    (hd : x.driven = true) (hs : o.substate = .fast) (hf : x.lines = .run o.dir true) :
    (x.fastMoved a now o).1.LinesOk := by
  unfold Axis.fastMoved
  split
  · dsimp only
    have hk : (o.report a .slowEntered).1.dir = o.dir := o.report_dir ..
    have e : x.setHigh false = { x with lines := .run o.dir false } := x.setHigh_of_run false _ _ hf
    have hd' : (x.setHigh false).driven = true := by rw [Axis.driven_of_config (x.setHigh_config false)]; exact hd
    -- the axis between the two substates has the lines of SLOW
    unfold Axis.slowMoved
    dsimp only
    split
    · unfold Axis.cut
      dsimp only
      have h1 : ((x.setHigh false).turnOff now).lines = .off := Axis.turnOff_lines ..
      have h2 : ((x.setHigh false).turnOff now).stall = none := by
        rw [Axis.turnOff_of_run now _ o.dir false (by rw [e])]
      have h3 : ((x.setHigh false).turnOff now).driven = true := by
        rw [Axis.driven_of_config (Axis.turnOff_config now _)]; exact hd'
      split
      · exact Axis.linesOk_enterSettle h1 h2 h3
      · exact Axis.linesOk_enterCoast h1 h2 h3
    · refine Axis.linesOk_setHigh h hd hf ?_
      show (Lines.run o.dir false) = .run (o.report a .slowEntered).1.dir false
      rw [hk]
  · refine Axis.linesOk_goesOn h hd ?_
    unfold ActiveOrder.linesFit; rw [hs]; exact hf

theorem Axis.linesOk_takeupMoved {a : AxisId} {now : Time} {l : Dir → Bool} {o p : ActiveOrder} {x : Axis}
    (h : x.LinesOk) (hm : x.motion = .moving p) (hs : o.substate = .takeup) (hf : x.lines.dir = some o.dir.opposite) :
    (x.takeupMoved a now l o).1.LinesOk := by
  have hd := h.driven_moving hm
  obtain ⟨h1, h2, h3⟩ := Axis.turnOff_off (now := now) h hd
  unfold Axis.takeupMoved
  split
  · -- the leg start only looks at the lines, which are off
    unfold Axis.legStart
    dsimp only
    split
    · exact Axis.linesOk_enterSettle h1 h2 h3
    · rename_i e
      unfold Axis.beginLeg
      split
      · refine Axis.linesOk_off (Axis.turnOff_lines ..) rfl ?_ ?_
        · rcases ActiveOrder.motionAfter_still _ .limited (x.turnOff now).holdPending with g | g | g <;>
            (unfold Axis.endOrder; dsimp only; rw [g]; rfl)
        · intro hw
          exfalso
          have : (x.turnOff now).driven = false := by
            rw [← hw]; exact (Axis.driven_of_config (Axis.acts_endOrder a now _ .limited _).config).symm
          rw [h3] at this; cases this
      split
      · exact Axis.linesOk_movingOff h1 h2 h3 rfl
      · rename_i hp
        refine Axis.linesOk_run rfl ?_ (Axis.permits_of_not hp) h3
        refine planLeg_fits e _ ?_ _
        split
        · exact ActiveOrder.report_dir ..
        · rfl
  split
  · obtain ⟨d, c, hl⟩ : ∃ d c, x.lines = .run d c := by
      cases e : x.lines
      · rw [e] at hf; cases hf
      · exact ⟨_, _, rfl⟩
    refine Axis.linesOk_setHigh h hd hl ?_
    show o.linesFit _
    unfold ActiveOrder.linesFit; rw [hs]
    rw [hl] at hf; exact hf
  · refine Axis.linesOk_goesOn h hd ?_
    unfold ActiveOrder.linesFit; rw [hs]; exact hf

/-- A substate without lines is kept by a changed record. -/
theorem Axis.linesOk_keeps {x : Axis} {o : ActiveOrder} (h : x.LinesOk) (hd : x.driven = true)
    (hf : o.linesFit x.lines) (p : ActiveOrder) (hs : p.substate = o.substate) (hp : p.dir = o.dir) :
    ({ x with motion := .moving p } : Axis).LinesOk := by
  refine Axis.linesOk_goesOn h hd ?_
  unfold ActiveOrder.linesFit at hf ⊢
  rw [hs, hp]
  exact hf

theorem ActiveOrder.report_substate (a : AxisId) (z : Zone) (o : ActiveOrder) :
    (o.report a z).1.substate = o.substate := by
  unfold ActiveOrder.report; split <;> rfl

theorem Axis.linesOk_coastMoved {a : AxisId} {o : ActiveOrder} {x : Axis} (h : x.LinesOk) (hd : x.driven = true)
    (hl : x.lines = .off) (hf : o.linesFit x.lines) : (x.coastMoved a o).1.LinesOk := by
  unfold Axis.coastMoved
  split
  · exact Axis.linesOk_enterSettle hl (h.stall hl) hd
  split
  · exact Axis.linesOk_keeps h hd hf _ (o.report_substate ..) (o.report_dir ..)
  · exact Axis.linesOk_goesOn h hd hf

theorem Axis.linesOk_settleMoved {a : AxisId} {o : ActiveOrder} {x : Axis} (h : x.LinesOk) (hd : x.driven = true)
    (hl : x.lines = .off) (hf : o.linesFit x.lines) : (x.settleMoved a o).1.LinesOk := by
  unfold Axis.settleMoved
  split
  · exact Axis.linesOk_goesOn h hd hf
  · exact Axis.linesOk_enterCoast hl (h.stall hl) hd

theorem Axis.linesOk_positionMoved {a : AxisId} {now : Time} {l : Dir → Bool} {d : Dir} {x : Axis} (h : x.LinesOk) :
    (x.positionMoved a now l d).1.LinesOk := by
  unfold Axis.positionMoved
  split
  · rename_i o hm
    have hd := h.driven_moving hm
    have hf0 : o.linesFit x.lines := by have := h.fit; rw [hm] at this; exact this
    generalize hp : ({ o with dist := if d = o.dir then o.dist - 1 else o.dist + 1 } : ActiveOrder) = p
    have hf : p.linesFit x.lines := by rw [← hp]; exact hf0
    dsimp only
    have hf' := hf
    split <;> rename_i hs <;> unfold ActiveOrder.linesFit at hf' <;> rw [hs] at hf' <;> dsimp only at hf'
    · exact Axis.linesOk_takeupMoved h hm hs hf'
    · exact Axis.linesOk_fastMoved h hd hs hf'
    · exact Axis.linesOk_slowMoved h hd hf'
    · exact Axis.linesOk_coastMoved h hd hf' hf
    · exact Axis.linesOk_settleMoved h hd hf' hf
    · exact Axis.linesOk_goesOn h hd hf
  all_goals exact h

theorem Axis.linesOk_restartStall {x : Axis} (h : x.LinesOk) : x.restartStall.LinesOk where
  fit := h.fit
  permitted := h.permitted
  stall := by intro e; simp [h.stall e]
  watched := h.watched

theorem Axis.linesOk_countEvent {x : Axis} (h : x.LinesOk) : x.countEvent.LinesOk := by
  have h0 := Axis.linesOk_restartStall h
  unfold Axis.countEvent
  dsimp only
  split
  · rename_i o hm
    split
    · rename_i t hs
      have hd := h0.driven_moving hm
      have hf : o.linesFit x.restartStall.lines := by have := h0.fit; rw [hm] at this; exact this
      unfold ActiveOrder.linesFit at hf
      rw [hs] at hf
      exact Axis.linesOk_movingOff hf (h0.stall hf) hd rfl
    all_goals exact h0
  all_goals exact h0

theorem Axis.linesOk_judgeRest {a : AxisId} {now : Time} {l : Dir → Bool} {o : ActiveOrder} {t : Timer} {x : Axis}
    (h : x.LinesOk) (hm : x.motion = .moving o) (hs : o.substate = .coast t) : (x.judgeRest a now l o).1.LinesOk := by
  have hf : o.linesFit x.lines := by have := h.fit; rw [hm] at this; exact this
  unfold ActiveOrder.linesFit at hf
  rw [hs] at hf
  unfold Axis.judgeRest
  split
  · exact h
  split
  · exact Axis.linesOk_legStart h hf (h.driven_moving hm)
  · exact Axis.linesOk_endOrder h

/-! ### Homing, jog, claims -/

theorem Axis.linesOk_askFor {x : Axis} {hm : Homing} (hmo : x.motion = .homing hm) (hl : x.lines = .off)
    (hs : x.stall = none) (hd : x.driven = true) : (x.askFor hm.wanted.1 hm.wanted.2).LinesOk := by
  unfold Axis.askFor
  rw [hl]
  dsimp only
  split
  · rename_i hp
    refine Axis.linesOk_run rfl ?_ hp hd
    show Motion.linesFit x.motion _
    rw [hmo]; exact Or.inr rfl
  · refine Axis.linesOk_off hl hs ?_ ?_
    · rw [hmo]; exact Or.inl rfl
    · intro e; rw [e] at hd; cases hd

/-- A homing run of a record brings the lines of the axis, which fitted whatever ran before, to its wanted pattern. -/
theorem Axis.linesOk_bringLines {now : Time} {hm : Homing} {x : Axis} (hmo : x.motion = .homing hm)
    (hp : ∀ d h, x.lines = .run d h → x.permits d = true) (hs : x.lines = .off → x.stall = none)
    (hw : x.driven = false → x.lines = .off ∧ x.queue = []) : (x.bringLines now hm).LinesOk := by
  unfold Axis.bringLines
  split
  · rename_i hd
    split
    · rename_i hl
      cases e : x.lines with
      | off => rw [e] at hl; cases hl
      | run d c =>
        rw [e] at hl
        cases hl
        rw [x.setHigh_of_run _ _ _ e]
        refine Axis.linesOk_run rfl ?_ (hp _ _ e) hd
        show Motion.linesFit x.motion _
        rw [hmo]; exact Or.inr rfl
    · refine Axis.linesOk_askFor (by simpa using hmo) (x.turnOff_lines now) ?_
        (by rw [Axis.driven_of_config (x.turnOff_config now)]; exact hd)
      cases e : x.lines
      · rw [x.turnOff_of_off now e]; exact hs e
      · rw [x.turnOff_of_run now _ _ e]
  · rename_i hd
    have hd' : x.driven = false := by simpa using hd
    obtain ⟨h1, h2⟩ := hw hd'
    refine Axis.linesOk_off h1 (hs h1) ?_ ?_
    · rw [hmo]; exact Or.inl rfl
    · intro _; refine ⟨h2, ?_⟩; rw [hmo]; exact trivial

theorem Axis.linesOk_homingGoes {now : Time} {hm : Homing} {x : Axis} (h : x.LinesOk) :
    (x.homingGoes now hm).1.LinesOk :=
  Axis.linesOk_bringLines rfl h.permitted h.stall (fun e => ⟨(h.watched e).1, (h.watched e).2.1⟩)

theorem Axis.linesOk_endHoming {a : AxisId} {now : Time} {datum : Int} {x : Axis} (h : x.LinesOk) :
    (x.endHoming a now datum).1.LinesOk := Axis.linesOk_still now h _ _ (by split <;> simp)

theorem Axis.linesOk_askJog {j : Jog} {x : Axis} (hl : x.lines = .off) (hs : x.stall = none) (hd : x.driven = true) :
    (x.askJog j).LinesOk := by
  unfold Axis.askJog
  split
  · rename_i hp
    refine Axis.linesOk_run rfl ?_ hp hd
    simp [Motion.linesFit]
  · refine Axis.linesOk_off hl hs ?_ ?_
    · simp [Motion.linesFit]
    · intro e; rw [show x.driven = false from e] at hd; cases hd

theorem Axis.linesOk_jog {now : Time} {d : Dir} {sp : Speed} {n : Nat} {x : Axis} (h : x.LinesOk)
    (hd : x.driven = true) (hm : x.motion.refusesJog = false) : (x.jog now d sp n).LinesOk := by
  unfold Axis.jog
  split <;> rename_i e
  · rename_i j
    have hf : if j.pending then x.lines = .off else x.lines = .run j.dir (decide (j.speed = .high)) := by
      have := h.fit; rw [e] at this; exact this
    unfold Axis.changeJog
    dsimp only
    by_cases hp : j.pending
    · rw [if_pos hp] at hf
      simp only [hp, if_true]
      split
      · refine Axis.linesOk_off hf (h.stall hf) ?_ ?_
        · simp [Motion.linesFit]
        · intro g; rw [show x.driven = false from g] at hd; cases hd
      · exact Axis.linesOk_askJog hf (h.stall hf) hd
    · rw [if_neg hp] at hf
      simp only [hp]
      split
      · rename_i hj
        refine Axis.linesOk_setHigh h hd hf ?_
        simp [Motion.linesFit, hj]
      · obtain ⟨h1, h2, h3⟩ := Axis.turnOff_off (now := now) h hd
        exact Axis.linesOk_askJog h1 h2 h3
  all_goals
    first
    | (rw [e] at hm; exact absurd hm Bool.noConfusion)
    | (have hl := h.off_of (by rw [e]; rfl)
       exact Axis.linesOk_askJog hl (h.stall hl) hd)

theorem Axis.linesOk_jogNone {a : AxisId} {now : Time} {x : Axis} (h : x.LinesOk) : (x.jogNone a now).1.LinesOk := by
  unfold Axis.jogNone
  split
  · exact Axis.linesOk_endJog h
  all_goals exact h

theorem Axis.permits_endLockout (d : Dir) (x : Axis) : x.endLockout.permits d = true := by
  unfold Axis.permits Axis.endLockout
  cases x.lockout <;> simp

theorem Axis.linesOk_endLockout {x : Axis} (h : x.LinesOk) : x.endLockout.LinesOk where
  fit := h.fit
  permitted := fun d _ _ => x.permits_endLockout d
  stall := h.stall
  watched := h.watched

theorem Axis.linesOk_lockoutExpired {a : AxisId} {now : Time} {l : Dir → Bool} {x : Axis} (h : x.LinesOk) :
    (x.lockoutExpired a now l).1.LinesOk := by
  have h0 := Axis.linesOk_endLockout h
  unfold Axis.lockoutExpired
  dsimp only
  split
  · rename_i o hm
    split
    · rename_i hs
      have hf : o.linesFit x.endLockout.lines := by have := h0.fit; rw [hm] at this; exact this
      unfold ActiveOrder.linesFit at hf
      rw [hs] at hf
      exact Axis.linesOk_legStart h0 hf (h0.driven_moving hm)
    all_goals exact h0
  · rename_i hm
    exact Axis.linesOk_bringLines hm h0.permitted h0.stall (fun e => ⟨(h0.watched e).1, (h0.watched e).2.1⟩)
  · rename_i j hm
    split
    · rename_i hp
      have hf := h0.fit
      rw [hm] at hf
      simp only [Motion.linesFit, hp, if_true] at hf
      refine Axis.linesOk_askJog hf (h0.stall hf) ?_
      cases e : x.endLockout.driven
      · have := (h0.watched e).2.2; rw [hm] at this; exact this.elim
      · rfl
    · exact h0
  all_goals exact h0

theorem Axis.linesOk_holdQueue {x : Axis} (h : x.LinesOk) : x.holdQueue.LinesOk := by
  unfold Axis.holdQueue
  split
  · rename_i e
    have hl : x.lines = .off := h.off_of (by rcases e.1 with g | g <;> rw [g] <;> rfl)
    exact Axis.linesOk_stand h hl _ _ (by simp)
  · exact h

theorem Axis.linesOk_linkLost {a : AxisId} {now : Time} {x : Axis} (h : x.LinesOk) : (x.linkLost a now).1.LinesOk :=
  Axis.linesOk_holdQueue (Axis.linesOk_endOperation h)

/-- Orders leave the queue. -/
theorem Axis.linesOk_queue {x : Axis} (h : x.LinesOk) (q : List Order) (hq : x.queue = [] → q = []) :
    ({ x with queue := q } : Axis).LinesOk where
  fit := h.fit
  permitted := h.permitted
  stall := h.stall
  watched := fun e => ⟨(h.watched e).1, hq (h.watched e).2.1, (h.watched e).2.2⟩

theorem Axis.linesOk_halt {a : AxisId} {now : Time} {x : Axis} (h : x.LinesOk) : (x.halt a now).1.LinesOk := by
  unfold Axis.halt
  split <;> rename_i e
  · exact Axis.linesOk_endOperation h
  · exact Axis.linesOk_endOperation h
  · exact Axis.linesOk_endOperation h
  · exact Axis.linesOk_stand h (h.off_of (by rw [e]; rfl)) _ _ (by simp)
  · exact Axis.linesOk_stand h (h.off_of (by rw [e]; rfl)) _ _ (by simp)
  · exact Axis.linesOk_stand h (h.off_of (by rw [e]; rfl)) _ _ (by simp)
  · exact ⟨h.fit, h.permitted, h.stall, h.watched⟩

theorem Axis.linesOk_stop {a : AxisId} {now : Time} {b : Bool} {x : Axis} (h : x.LinesOk) :
    (x.stop a now b).1.LinesOk := by
  unfold Axis.stop
  dsimp only
  split
  · exact Axis.linesOk_queue (Axis.linesOk_halt h) [] (fun _ => rfl)
  · exact Axis.linesOk_halt h

theorem Axis.linesOk_hold {x : Axis} (h : x.LinesOk) : x.hold.LinesOk := by
  unfold Axis.hold
  split <;> rename_i e
  · exact Axis.linesOk_stand h (h.off_of (by rw [e]; rfl)) _ _ (by simp)
  · exact Axis.linesOk_stand h (h.off_of (by rw [e]; rfl)) _ _ (by simp)
  · exact ⟨h.fit, h.permitted, h.stall, h.watched⟩
  · exact ⟨h.fit, h.permitted, h.stall, h.watched⟩
  all_goals exact h

theorem Axis.linesOk_release {x : Axis} (h : x.LinesOk) : x.release.LinesOk := by
  unfold Axis.release
  by_cases e : x.motion = .held
  · rw [if_pos e]
    exact Axis.linesOk_stand h (h.off_of (by rw [e]; rfl)) _ _ (by simp)
  · rw [if_neg e]
    exact ⟨h.fit, h.permitted, h.stall, h.watched⟩

theorem Axis.linesOk_afterRemoval {x : Axis} (h : x.LinesOk) (q r : List Order) (hq : x.queue = [] → q = []) :
    ({ x with queue := q, motion := x.motion.afterRemoval r } : Axis).LinesOk := by
  unfold Motion.afterRemoval
  split
  · rename_i e
    have hl : x.lines = .off := h.off_of (by rw [e.1]; rfl)
    exact Axis.linesOk_off hl (h.stall hl) rfl (fun g => ⟨hq (h.watched g).2.1, trivial⟩)
  · exact Axis.linesOk_queue h q hq

theorem Axis.linesOk_cancelTag {a : AxisId} {now : Time} {n : Nat} {x : Axis} (h : x.LinesOk) :
    (x.cancelTag a now n).1.LinesOk := by
  unfold Axis.cancelTag
  split
  · split
    · exact Axis.linesOk_endOrder h
    · exact Axis.linesOk_queue h _ (fun e => by rw [e]; rfl)
  · exact Axis.linesOk_afterRemoval h _ _ (fun e => by rw [e]; rfl)

theorem Axis.linesOk_cancelAll {a : AxisId} {now : Time} {x : Axis} (h : x.LinesOk) :
    (x.cancelAll a now).1.LinesOk := by
  unfold Axis.cancelAll
  dsimp only
  split
  · exact Axis.linesOk_afterRemoval (Axis.linesOk_endOrder h) [] [] (fun _ => rfl)
  all_goals exact Axis.linesOk_afterRemoval h [] [] (fun _ => rfl)

theorem Axis.linesOk_takeStop {a : AxisId} {now : Time} {x : Axis} (h : x.LinesOk) :
    (x.takeStop a now).1.LinesOk := by
  unfold Axis.takeStop
  split
  · exact Axis.linesOk_endOrder h
  · exact Axis.linesOk_failHoming h
  all_goals exact h

theorem Axis.linesOk_takeLimit {a : AxisId} {now : Time} {d : Dir} {x : Axis} (h : x.LinesOk) :
    (x.takeLimit a now d).1.LinesOk := by
  unfold Axis.takeLimit
  split
  · split
    · exact Axis.linesOk_endOrder h
    · exact h
  · split
    · exact Axis.linesOk_endJog h
    · exact h
  all_goals exact h

theorem Axis.linesOk_takeRelease {x : Axis} (h : x.LinesOk) : x.takeRelease.1.LinesOk := by
  unfold Axis.takeRelease
  split
  · rename_i e
    exact Axis.linesOk_stand h (h.off_of (by rw [e]; rfl)) .idle x.holdPending (by simp)
  · exact h

theorem Axis.linesOk_takeStart {a : AxisId} {now : Time} {t : TableStore} {g : Bool} {l : Dir → Bool} {x : Axis}
    (h : x.LinesOk) : (x.takeStart a now t g l).1.LinesOk := by
  unfold Axis.takeStart
  split
  · rename_i o rest hm hq
    have hl : x.lines = .off := h.off_of (by rw [hm]; rfl)
    have hd : x.driven = true := by
      cases e : x.driven
      · have := (h.watched e).2.1; rw [hq] at this; cases this
      · rfl
    have hw : ∀ y : Axis, y.config = x.config → y.driven = false → False := by
      intro y hy e; rw [Axis.driven_of_config hy, hd] at e; cases e
    split
    · exact Axis.linesOk_off hl (h.stall hl) rfl (fun e => (hw _ rfl e).elim)
    · exact Axis.linesOk_off hl (h.stall hl) rfl (fun e => (hw _ rfl e).elim)
    · exact h
    · rename_i r _
      refine Axis.linesOk_legStart ?_ hl hd
      exact Axis.linesOk_off hl (h.stall hl) rfl (fun e => (hw _ rfl e).elim)
  · exact h

end Sys2Proof.Machine
end

