-- ==== Sys2Proof/Laws/Axes.lean ====
section
/-! SUPPORT. A property of every axis through the shared operations over the state: what an operation needs of the
property so that it keeps it. -/

namespace Sys2Proof.Machine

/-- A property of an axis that claims in flight, the Counting Unit, the pins and the passing of time do not touch. -/
structure Axis.Steady (p : Axis → Prop) : Prop where
  claims : ∀ x cs, p x → p { x with claims := cs }
  faultClaims : ∀ x ks, p x → p { x with faultClaims := ks }
  counting : ∀ x c, p x → p { x with counting := c }
  pins : ∀ x v, p x → p { x with pins := v }
  advance : ∀ n x, p x → p (x.advance n)

/-- Every axis of a state has a property. -/
abbrev State.All (p : Axis → Prop) (s : State) : Prop := ∀ a, p (s.axis a)

theorem Axis.Steady.same {p : Axis → Prop} (h : Axis.Steady p) {x y : Axis} (hs : x.SameButClaims y) (hx : p x) :
    p y := by
  rw [hs]; exact h.claims x _ hx

theorem State.All.setAxis {p : Axis → Prop} {s : State} (h : s.All p) (a : AxisId) {x : Axis} (hx : p x) :
    (s.setAxis a x).All p := by
  intro b
  rw [State.setAxis_axis]
  split
  · exact hx
  · exact h b

theorem State.All.modifyAxis {p : Axis → Prop} {s : State} (h : s.All p) (a : AxisId) {f : Axis → Axis}
    (hf : p (s.axis a) → p (f (s.axis a))) : (s.modifyAxis a f).All p := h.setAxis a (hf (h a))

theorem State.All.take {p : Axis → Prop} {s : State} (h : s.All p) (a : AxisId) {f : Axis → Taken}
    (hf : p (s.axis a) → p (f (s.axis a)).1) : (s.take a f).All p := by
  intro b
  rw [State.take_axis]
  split
  · exact hf (h a)
  · exact h b

theorem State.All.offers {p : Axis → Prop} {s : State} (h : s.All p) (bs : List NoticeBody) : (s.offers bs).All p := by
  intro b; rw [State.offers_axis]; exact h b

theorem State.All.sends {p : Axis → Prop} (hp : Axis.Steady p) {s : State} (h : s.All p)
    (cs : List (AxisId × Claim)) : (s.sends cs).All p := fun b => hp.same (s.sends_same cs b) (h b)

theorem State.All.monitorTakes {p : Axis → Prop} (hp : Axis.Steady p) {s : State} (h : s.All p) (q : Option Int)
    (ws : Table Window) (k : Guard → Bool) (l : Nat → Window → Bool) : (s.monitorTakes q ws k l).All p :=
  fun b => hp.same (s.monitorTakes_same q ws k l b) (h b)

theorem State.All.windowsOf {p : Axis → Prop} (hp : Axis.Steady p) {s : State} (h : s.All p) (a : AxisId) :
    (s.windowsOf a).All p := fun b => hp.same (s.windowsOf_same a b) (h b)

theorem State.All.advance {p : Axis → Prop} (hp : Axis.Steady p) {s : State} (h : s.All p) (n : Nat) :
    (s.advance n).All p := by
  intro b; rw [State.advance_axis]; exact hp.advance n _ (h b)

theorem State.All.loseReference {p : Axis → Prop} (hp : Axis.Steady p) {s : State} (h : s.All p) (a : AxisId) :
    (s.loseReference a).All p := by
  unfold State.loseReference
  split
  · exact h
  · exact (h.modifyAxis a (hp.counting _ _)).windowsOf hp a

theorem Axis.recordFault_axis (a : AxisId) (now : Time) (k : FaultKind) (x : Axis) :
    ∃ c, (x.recordFault a now k).1 = { x with counting := c } := by
  unfold Axis.recordFault
  split
  · exact ⟨_, rfl⟩
  · split
    · exact ⟨x.counting, rfl⟩
    · exact ⟨_, rfl⟩

theorem State.All.raise {p : Axis → Prop} (hp : Axis.Steady p) {s : State} (h : s.All p) (a : AxisId) (k : FaultKind) :
    (s.raise a k).All p := by
  unfold State.raise
  refine State.All.modifyAxis (State.All.loseReference hp (h.take a ?_) a) a (hp.faultClaims _ _)
  intro hx
  obtain ⟨c, hc⟩ := (s.axis a).recordFault_axis a s.timebase k
  rw [hc]; exact hp.counting _ _ hx

theorem State.All.raiseLine {p : Axis → Prop} (hp : Axis.Steady p) {s : State} (h : s.All p) (a : AxisId) :
    (s.raiseLine a).All p := State.All.raise hp (h.modifyAxis a (hp.counting _ _)) a .line

theorem State.All.dropGained {p : Axis → Prop} (hp : Axis.Steady p) {s : State} (h : s.All p) (a : AxisId) :
    (s.dropGained a).All p := by
  unfold State.dropGained
  split
  · exact h.loseReference hp a
  · exact h.loseReference hp a
  · exact h.loseReference hp a
  · exact h
  · exact h

theorem State.All.expire {p : Axis → Prop} (hp : Axis.Steady p) {s : State} (h : s.All p) (t : Option Timer) (b : Nat)
    {f : State → State} (hf : ∀ u : State, u.All p → (f u).All p) : (s.expire t b f).All p := by
  rcases s.expire_cases t b f with e | ⟨u, _, _, e⟩
  · rw [e]; exact h
  · rw [e]; exact hf _ (h.advance hp _)

theorem State.All.indexCheck {p : Axis → Prop} (hp : Axis.Steady p) {s : State} (h : s.All p) (a : AxisId) :
    (s.indexCheck a).All p := by
  unfold State.indexCheck
  dsimp only
  split
  · exact h
  split
  · exact h.setAxis a (hp.counting _ _ (h a))
  split
  · exact h.setAxis a (hp.counting _ _ (h a))
  · exact h.raise hp a .slip

/-- A counted edge keeps a property that the Axis Controller keeps at a count event and at a position change. -/
theorem State.All.countEdge {p : Axis → Prop} (hp : Axis.Steady p) (he : ∀ x, p x → p x.countEvent)
    (hm : ∀ a now l d x, p x → p (Axis.positionMoved a now l d x).1) {s : State} (h : s.All p) (a : AxisId)
    (lv : EncoderLevels) (o : List Block) : (s.countEdge a lv o).All p := by
  have hc : ∀ {u : State}, u.All p → ∀ d, (u.controllerMoves a d).All p := fun hu d => hu.take a (hm _ _ _ _ _)
  unfold State.countEdge
  dsimp only
  split
  · exact h.setAxis a (hp.pins _ _ (h a))
  · have h1 : ∀ d, p ((s.axis a).count lv d).countEvent := fun d =>
      he _ (hp.counting { s.axis a with pins := { (s.axis a).pins with encoder := lv } } _
        (hp.pins (s.axis a) { (s.axis a).pins with encoder := lv } (h a)))
    split
    · exact h.setAxis a (h1 _)
    · split
      · exact (h.setAxis a (h1 _)).raise hp a .overrange
      split
      · exact (hc (h.setAxis a (h1 _)) _).windowsOf hp a
      · exact hc ((h.setAxis a (h1 _)).windowsOf hp a) _

/-- The passing of time does not touch the lines of an axis. -/
theorem Axis.linesOk_advance (n : Nat) {x : Axis} (h : x.LinesOk) : (x.advance n).LinesOk where
  fit := by
    have := h.fit
    show (x.motion.advance n).linesFit x.lines
    cases e : x.motion with
    | moving o =>
      rw [e] at this
      simp only [Motion.linesFit, Motion.advance] at this ⊢
      unfold ActiveOrder.linesFit at this ⊢
      cases hs : o.substate <;> rw [hs] at this <;> simpa [Substate.advance, hs] using this
    | homing r => rw [e] at this; exact this
    | jogging j => rw [e] at this; exact this
    | _ => rw [e] at this; exact this
  permitted := by
    intro d b hl
    have := h.permitted d b hl
    unfold Axis.permits at this ⊢
    show (match x.lockout.map (fun r => { r with timer := r.timer.map (Timer.advance n) }) with
      | none => true
      | some r => r.timer.isNone || decide (r.line = d)) = true
    cases e : x.lockout with
    | none => rfl
    | some r => rw [e] at this; simpa using this
  stall := by
    intro hl
    have := h.stall hl
    show x.stall.map (Timer.advance n) = none
    rw [this]; rfl
  watched := by
    intro hd
    obtain ⟨h1, h2, h3⟩ := h.watched hd
    refine ⟨h1, h2, ?_⟩
    show (x.motion.advance n).watchedState
    cases e : x.motion <;> rw [e] at h3 <;> exact h3

/-- The lines of an axis are steady. -/
theorem Axis.steady_linesOk : Axis.Steady Axis.LinesOk where
  claims := fun _ _ h => ⟨h.fit, h.permitted, h.stall, h.watched⟩
  faultClaims := fun _ _ h => ⟨h.fit, h.permitted, h.stall, h.watched⟩
  counting := fun _ _ h => ⟨h.fit, h.permitted, h.stall, h.watched⟩
  pins := fun _ _ h => ⟨h.fit, h.permitted, h.stall, h.watched⟩
  advance := fun n _ h => Axis.linesOk_advance n h

end Sys2Proof.Machine
end

