-- ==== Sys2Proof/Laws/Commands.lean ====
section
/-! SUPPORT. A property of every axis through every command: what each operation on one axis needs of the property so
that `exec` keeps it for every axis. -/

namespace Sys2Proof.Machine

/-- A property of an axis that each operation on an axis keeps, under what is known where a command uses it. -/
structure Axis.Kept (p : Axis → Prop) : Prop where
  steady : Axis.Steady p
  reset : ∀ x low, p (Axis.resetTo low x)
  configure : ∀ x fs, x.configurable = true → p x → p (Axis.configure (x.config.with fs) x)
  clearFault : ∀ x, x.motion.isFaulted = true → p x → p x.clearFault
  homingGoes : ∀ x now h, p x → p (Axis.homingGoes now h x).1
  enqueue : ∀ x a t o, Axis.refusesOrder a t o x = none → p x → p { x with queue := x.queue ++ [o] }
  cancelTag : ∀ x a now n, p x → p (Axis.cancelTag a now n x).1
  cancelAll : ∀ x a now, p x → p (Axis.cancelAll a now x).1
  hold : ∀ x, p x → p x.hold
  release : ∀ x, p x → p x.release
  stop : ∀ x a now f, p x → p (Axis.stop a now f x).1
  jogNone : ∀ x a now, p x → p (Axis.jogNone a now x).1
  jog : ∀ x now d sp n, x.driven = true → x.motion.refusesJog = false → p x → p (Axis.jog now d sp n x)
  setCapture : ∀ x m, p x → p (Axis.setCapture m x)
  readCaptures : ∀ x n, p x → p (Axis.readCaptures n x)
  capture : ∀ x a now b, p x → p (Axis.capture a now b x).1
  holdQueue : ∀ x, p x → p x.holdQueue
  linkLost : ∀ x a now, p x → p (Axis.linkLost a now x).1
  countEvent : ∀ x, p x → p x.countEvent
  positionMoved : ∀ a now l d x, p x → p (Axis.positionMoved a now l d x).1
  endHoming : ∀ a now d x, p x → p (Axis.endHoming a now d x).1
  stalls : ∀ x a now, p x → p (Axis.stalls a now x).1
  failHoming : ∀ x a now why, p x → p (Axis.failHoming a now why x).1
  endOrder : ∀ x a now o why, x.motion = .moving o → p x → p (Axis.endOrder a now o why x).1
  judgeRest : ∀ x a now l o c, x.motion = .moving o → o.substate = .coast c → p x → p (Axis.judgeRest a now l o x).1
  lockoutExpired : ∀ x a now l, p x → p (Axis.lockoutExpired a now l x).1
  endJog : ∀ x a now why, p x → p (Axis.endJog a now why x).1
  takeStart : ∀ x a now t g l, p x → p (Axis.takeStart a now t g l x).1
  takeStop : ∀ x a now, p x → p (Axis.takeStop a now x).1
  takeLimit : ∀ x a now d, p x → p (Axis.takeLimit a now d x).1
  takeRelease : ∀ x, p x → p (Axis.takeRelease x).1
  takeFault : ∀ x a now k, p x → p (Axis.takeFault a now k x).1

theorem State.All.setMonitor {p : Axis → Prop} {s : State} (h : s.All p) (w : WindowMonitor) : (s.setMonitor w).All p :=
  h

/-- An execution keeps what the request's own rule keeps. -/
theorem State.All.execute {p : Axis → Prop} {s : State} (h : s.All p) (c : ReqCode)
    (own : List Field → State → Answer × State) (ho : ∀ fs u, State.All p u → (own fs u).2.All p) :
    (s.execute c own).All p := by
  unfold State.execute
  split
  · exact h
  · unfold State.serve
    have h1 : (s.setLink s.link.popIntake).All p := h
    split
    · exact h1
    · exact ho _ _ h1

theorem State.resetTo_axis (s : State) (c : Cause) (st : Straps) (low : Bool) (a : AxisId) :
    (s.resetTo c st low).axis a = (s.axis a).resetTo s.link.resetnLow := by
  show (s.axes.map (Axis.resetTo s.link.resetnLow)).get a = _
  simp; rfl

theorem State.close_axis (s : State) (a : AxisId) : s.close.axis a = (s.axis a).holdQueue := by
  show (s.axes.map Axis.holdQueue).get a = _
  simp; rfl

theorem Axis.Kept.resetTo {p : Axis → Prop} (k : Axis.Kept p) (s : State) (c : Cause) (st : Straps) (low : Bool) :
    (s.resetTo c st low).All p := fun a => by rw [State.resetTo_axis]; exact k.reset _ _

theorem Axis.Kept.lossAt {p : Axis → Prop} (k : Axis.Kept p) {s : State} (h : s.All p) (m : List AxisId) (b : Block) :
    (s.lossAt m b).All p := by
  unfold State.lossAt
  split
  · exact h.take _ (k.linkLost _ _ _)
  all_goals exact h

theorem Axis.Kept.linkLoss {p : Axis → Prop} (k : Axis.Kept p) {s : State} (h : s.All p) (o : List Block) :
    (s.linkLoss o).All p := by
  unfold State.linkLoss
  generalize (s.moving) = m
  have h0 : ((s.setLink s.link.lose).setNotices s.notices.unsend).All p := h
  generalize ((s.setLink s.link.lose).setNotices s.notices.unsend) = u at *
  induction Block.arrange o lossBlocks generalizing u with
  | nil => exact h0
  | cons b bs ih => exact ih _ (k.lossAt h0 m b)

/-- What one party does at a reference event. -/
theorem Axis.Kept.referenceAct {p : Axis → Prop} (k : Axis.Kept p) {s : State} (h : s.All p) (a : AxisId) (d : Int)
    (b : Block) : (s.referenceAct a d b).All p := by
  cases b
  · exact h.take a (k.endHoming _ _ _ _)
  · exact h.windowsOf k.steady a
  · exact h.take a (k.capture _ _ _ _)
  · exact h
  · exact h.take a (k.takeStart _ _ _ _ _ _)

theorem Axis.Kept.referenceEvent {p : Axis → Prop} (k : Axis.Kept p) {s : State} (h : s.All p) (a : AxisId) (d : Int)
    (b : Bool) (o : List Block) : (s.referenceEvent a d b o).All p := by
  unfold State.referenceEvent
  have h0 : (s.modifyAxis a (fun x => x.gain d x.counting.raw (!b))).All p := h.modifyAxis a (k.steady.counting _ _)
  generalize (s.modifyAxis a (fun x => x.gain d x.counting.raw (!b))) = u at *
  induction Block.arrange o (referenceBlocks a b o) generalizing u with
  | nil => exact h0
  | cons c cs ih => exact ih _ (k.referenceAct h0 a d c)

/-- A SENSE edge at a homing run and at the Capture Log. -/
theorem Axis.Kept.homingSense {p : Axis → Prop} (k : Axis.Kept p) {s : State} (h : s.All p) (a : AxisId) (r : Homing)
    (b : Bool) (o : List Block) : (s.homingSense a r b o).All p := by
  unfold State.homingSense
  dsimp only
  split
  · exact k.referenceEvent h _ _ _ _
  · exact (h.take a (k.homingGoes _ _ _)).take a (k.capture _ _ _ _)

/-- HOME. -/
theorem Axis.Kept.homeRule {p : Axis → Prop} (k : Axis.Kept p) (fs : List Field) {s : State} (h : s.All p) :
    (homeRule fs s).2.All p := by
  unfold Machine.homeRule
  dsimp only
  (repeat' split) <;> try exact h
  exact State.All.loseReference k.steady (State.All.take h _ (k.homingGoes _ _ _)) _

theorem Axis.Kept.senseChange {p : Axis → Prop} (k : Axis.Kept p) {s : State} (h : s.All p) (a : AxisId) (b : Bool)
    (o : List Block) : (s.senseChange a b o).All p := by
  have h1 : (s.modifyAxis a (Axis.senseLevel b)).All p := h.modifyAxis a (k.steady.pins _ _)
  have home : ((s.modifyAxis a (Axis.senseLevel b)).homeAtEdge o).All p := by
    unfold State.homeAtEdge
    split
    · exact State.All.execute h1 _ _ (fun fs u hu => k.homeRule fs hu)
    · exact h1
  unfold State.senseChange
  dsimp only
  split
  · exact k.homingSense h1 _ _ _ _
  all_goals exact home.take a (k.capture _ _ _ _)

/-- SET-AXIS. -/
theorem Axis.Kept.setAxisRule {p : Axis → Prop} (k : Axis.Kept p) (fs : List Field) {s : State} (h : s.All p) :
    (setAxisRule fs s).2.All p := by
  unfold Machine.setAxisRule
  dsimp only
  split
  · rename_i hc
    unfold State.configure
    dsimp only
    have h1 : (s.modifyAxis (fieldAxis fs) (Axis.configure ((s.axis (fieldAxis fs)).config.with fs))).All p :=
      h.modifyAxis _ (k.configure _ _ hc)
    have h2 := State.All.loseReference k.steady h1 (fieldAxis fs)
    split
    · split
      · exact h2.raiseLine k.steady _
      · exact h1.raiseLine k.steady _
    · split
      · exact h2
      · exact h1
  · exact h

/-- A motion state in COAST after some time was in COAST before. -/
theorem Motion.coast_of_advance {m : Motion} {n : Nat} {t : Timer} {o : ActiveOrder} (ht : m.restTimer = some t)
    (hm : m.advance n = .moving o) : ∃ c, o.substate = .coast c := by
  unfold Motion.restTimer at ht
  split at ht
  · simp only [Motion.advance, Motion.moving.injEq] at hm
    split at ht
    · rename_i q hq
      exact ⟨q.advance n, by rw [← hm]; simp [hq, Substate.advance]⟩
    · cases ht
  · cases ht

/-- What `exec` does to the axes: a property that each operation on an axis keeps holds of every axis after any
command. -/
theorem State.All.exec {p : Axis → Prop} (k : Axis.Kept p) (i : Instr) {s t : State} (h : s.All p)
    (e : exec i s = .next t) : t.All p := by
  have st := k.steady
  cases i <;> simp only [Machine.exec] at e <;> cases e
  case openSession =>
    refine State.All.execute h _ _ (fun fs u hu => ?_)
    unfold openRule
    split <;> exact hu
  case closeSession =>
    refine State.All.execute h _ _ (fun fs u hu => ?_)
    unfold closeRule
    split
    · exact hu
    · intro a; rw [State.close_axis]; exact k.holdQueue _ (hu a)
  case ping => exact State.All.execute h _ _ (fun fs u hu => hu)
  case identify => exact State.All.execute h _ _ (fun fs u hu => hu)
  case linkStatus =>
    refine State.All.execute h _ _ (fun fs u hu => ?_)
    unfold linkStatusRule
    (try dsimp only)
    split <;> exact hu
  case restart => exact State.All.execute h _ _ (fun fs u hu => hu)
  case setAxis => exact State.All.execute h _ _ (fun fs u hu => k.setAxisRule fs hu)
  case getAxis => exact State.All.execute h _ _ (fun fs u hu => hu)
  case axisStatus => exact State.All.execute h _ _ (fun fs u hu => hu)
  case clearFault =>
    refine State.All.execute h _ _ (fun fs u hu => ?_)
    unfold clearFaultRule
    dsimp only
    split
    · exact hu
    split
    · exact hu
    · rename_i hf _
      exact hu.modifyAxis _ (k.clearFault _ (by simpa using hf))
  case home => exact State.All.execute h _ _ (fun fs u hu => k.homeRule fs hu)
  case teach =>
    refine State.All.execute h _ _ (fun fs u hu => ?_)
    unfold teachRule
    dsimp only
    (repeat' split) <;> try exact hu
    exact (hu.modifyAxis _ (st.counting _ _)).windowsOf st _
  case shift =>
    refine State.All.execute h _ _ (fun fs u hu => ?_)
    unfold shiftRule
    dsimp only
    (repeat' split) <;> try exact hu
    unfold State.shift; dsimp only
    split
    · exact (hu.setAxis _ (st.counting _ _ (hu _))).windowsOf st _
    · exact (hu.setAxis _ (st.counting _ _ (hu _)))
  case putStation =>
    refine State.All.execute h _ _ (fun fs u hu => ?_)
    unfold putStationRule
    (try dsimp only)
    (repeat' split) <;> exact hu
  case dropStation =>
    refine State.All.execute h _ _ (fun fs u hu => ?_)
    unfold dropStationRule
    (try dsimp only)
    (repeat' split) <;> exact hu
  case getStation =>
    refine State.All.execute h _ _ (fun fs u hu => ?_)
    unfold getStationRule
    (repeat' split) <;> exact hu
  case listStations => exact State.All.execute h _ _ (fun fs u hu => hu)
  case putProfile =>
    refine State.All.execute h _ _ (fun fs u hu => ?_)
    unfold putProfileRule
    (try dsimp only)
    (repeat' split) <;> exact hu
  case getProfile =>
    refine State.All.execute h _ _ (fun fs u hu => ?_)
    unfold getProfileRule
    (repeat' split) <;> exact hu
  case dropProfile =>
    refine State.All.execute h _ _ (fun fs u hu => ?_)
    unfold dropProfileRule
    (try dsimp only)
    (repeat' split) <;> exact hu
  case enqueue =>
    refine State.All.execute h _ _ (fun fs u hu => ?_)
    unfold enqueueRule
    dsimp only
    split
    · exact hu
    · rename_i hr
      exact hu.setAxis _ (k.enqueue _ _ _ _ hr (hu _))
  case cancel =>
    refine State.All.execute h _ _ (fun fs u hu => ?_)
    unfold cancelRule
    dsimp only
    split
    · exact hu.take _ (k.cancelAll _ _ _)
    split
    · exact hu.take _ (k.cancelTag _ _ _ _)
    · exact hu
  case hold =>
    refine State.All.execute h _ _ (fun fs u hu => ?_)
    unfold holdRule
    dsimp only
    split
    · exact hu
    · exact hu.modifyAxis _ (k.hold _)
  case release =>
    exact State.All.execute h _ _ (fun fs u hu => hu.modifyAxis _ (k.release _))
  case stop =>
    exact State.All.execute h _ _ (fun fs u hu => hu.take _ (k.stop _ _ _ _))
  case listOrders => exact State.All.execute h _ _ (fun fs u hu => hu)
  case jog =>
    refine State.All.execute h _ _ (fun fs u hu => ?_)
    unfold jogRule
    dsimp only
    split
    · exact hu
    split
    · exact hu
    split
    · exact hu
    split
    · exact hu
    · rename_i h1 h2 h3 h4
      unfold State.jog
      split
      · exact hu.take _ (k.jogNone _ _ _)
      · exact hu.modifyAxis _ (k.jog _ _ _ _ _ (by simpa using h1) (by simpa using h3))
  case putWindow =>
    refine State.All.execute h _ _ (fun fs u hu => ?_)
    unfold putWindowRule
    dsimp only
    split
    · exact hu
    · exact State.All.monitorTakes st (hu.setMonitor _) _ _ _ _
  case dropWindow =>
    refine State.All.execute h _ _ (fun fs u hu => ?_)
    unfold dropWindowRule
    (try dsimp only)
    (repeat' split) <;> exact hu
  case getWindow =>
    refine State.All.execute h _ _ (fun fs u hu => ?_)
    unfold getWindowRule
    (repeat' split) <;> exact hu
  case putGuard =>
    refine State.All.execute h _ _ (fun fs u hu => ?_)
    unfold putGuardRule
    dsimp only
    split
    · exact hu
    · exact State.All.sends st (State.All.offers (hu.setMonitor _) _) _
  case dropGuard =>
    refine State.All.execute h _ _ (fun fs u hu => ?_)
    unfold dropGuardRule
    dsimp only
    split
    · exact hu
    · exact State.All.sends st (hu.setMonitor _) _
  case getGuard =>
    refine State.All.execute h _ _ (fun fs u hu => ?_)
    unfold getGuardRule
    (repeat' split) <;> exact hu
  case setOutputs =>
    refine State.All.execute h _ _ (fun fs u hu => ?_)
    unfold setOutputsRule
    (try dsimp only)
    (repeat' split) <;> exact hu
  case setCapture => exact State.All.execute h _ _ (fun fs u hu => hu.modifyAxis _ (k.setCapture _ _))
  case readCaptures => exact State.All.execute h _ _ (fun fs u hu => hu.modifyAxis _ (k.readCaptures _ _))
  case ackNotices =>
    refine State.All.execute h _ _ (fun fs u hu => ?_)
    unfold ackNoticesRule
    (try dsimp only)
    (repeat' split) <;> exact hu
  case resendNotices => exact State.All.execute h _ _ (fun fs u hu => hu)
  case retryFromCache => exact h
  case frameReceived => exact h
  case frameGapExpiry => exact h.expire st _ _ (fun u hu => hu)
  case replyFrameStart => exact h
  case noticeFrameStart => split <;> exact h
  case frameEnd =>
    refine h.expire st _ _ (fun u hu => ?_)
    unfold State.frameEnds
    split
    · exact k.resetTo _ _ _ _
    · exact hu
    · exact hu
  case keepaliveExpiry =>
    refine h.expire st _ _ (fun u hu => ?_)
    split
    · exact hu
    · unfold State.restartAfterLoss
      split
      · exact k.resetTo _ _ _ _
      · exact k.linkLoss hu _
      · exact k.linkLoss hu _
  case reset => exact k.resetTo _ _ _ _
  case countEdge => exact h.countEdge st (k.countEvent) (k.positionMoved) _ _ _
  case indexMark a ed o =>
    have h1 : (s.sameInstantEdge a ed o).All p := by
      unfold State.sameInstantEdge; split
      · exact h
      · exact h.countEdge st (k.countEvent) (k.positionMoved) _ _ _
    have h2 := h1.indexCheck st a
    unfold State.homingMark
    (repeat' split) <;> try exact h2
    exact k.referenceEvent h2 _ _ _ _
  case senseEdge a hi o =>
    split
    · exact h
    · exact k.senseChange h a hi o
  case linePairChange a m =>
    refine h.modifyAxis a (fun hx => ?_)
    unfold Axis.pairsChange
    exact st.counting _ _ (st.pins _ { (s.axis a).pins with mismatch := m } hx)
  case lineTimerExpiry =>
    refine h.expire st _ _ (fun u hu => ?_)
    unfold State.lineConditionArises; dsimp only
    split
    · exact (hu.modifyAxis _ (st.counting _ _)).raiseLine st _
    · exact (hu.modifyAxis _ (st.counting _ _))
  case stallTimerExpiry => exact h.expire st _ _ (fun u hu => hu.take _ (k.stalls _ _ _))
  case homingLimitExpiry => exact h.expire st _ _ (fun u hu => hu.take _ (k.failHoming _ _ _ _))
  case settleTimerExpiry =>
    refine h.expire st _ _ (fun u hu => hu.take _ (fun hx => ?_))
    unfold Axis.onOrder; split
    · exact k.endOrder _ _ _ _ _ (by assumption) hx
    all_goals exact hx
  case restTimerExpiry a l =>
    rcases s.expire_cases (s.axis a).motion.restTimer l _ with e | ⟨tt, ht, _, e⟩
    · rw [e]; exact h
    · rw [e]
      refine (h.advance st _).take _ (fun hx => ?_)
      unfold Axis.onOrder; split
      · rename_i o ho
        have e1 : ((s.advance (tt.wait l)).axis a).motion = (s.axis a).motion.advance (tt.wait l) := by
          rw [State.advance_axis]; rfl
        obtain ⟨c, hc⟩ := Motion.coast_of_advance ht (e1.symm.trans ho)
        exact k.judgeRest _ _ _ _ _ _ ho hc hx
      all_goals exact hx
  case moveLimitExpiry =>
    refine h.expire st _ _ (fun u hu => hu.take _ (fun hx => ?_))
    unfold Axis.onOrder; split
    · exact k.endOrder _ _ _ _ _ (by assumption) hx
    all_goals exact hx
  case lockoutTimerExpiry => exact h.expire st _ _ (fun u hu => hu.take _ (k.lockoutExpired _ _ _ _))
  case deadmanExpiry => exact h.expire st _ _ (fun u hu => hu.take _ (k.endJog _ _ _ _))
  case orderStart => exact h.take _ (k.takeStart _ _ _ _ _ _)
  case stopClaim =>
    refine h.take _ (fun hx => ?_)
    unfold Axis.stopClaim; split
    · exact k.takeStop _ _ _ (st.claims _ _ hx)
    · exact hx
  case limitClaim =>
    refine h.take _ (fun hx => ?_)
    unfold Axis.limitClaim; split
    · exact k.takeLimit _ _ _ _ (st.claims _ _ hx)
    · exact hx
  case guardRelease =>
    refine h.take _ (fun hx => ?_)
    unfold Axis.guardRelease; split
    · exact k.takeRelease _ (st.claims _ _ hx)
    · exact hx
  case faultClaim =>
    refine (h.dropGained st _).take _ (fun hx => ?_)
    unfold Axis.faultClaim; split
    · exact hx
    · exact k.takeFault _ _ _ _ (st.faultClaims _ _ hx)
  case byteReceived => exact h
  case unknownRequestCode =>
    unfold State.executeUnknown; split
    · exact h
    · exact h

end Sys2Proof.Machine
end

