-- ==== Sys2Proof/Laws/Requests.lean ====
section
/-! SUPPORT. What a request that passes the general checks is known to hold: its required fields, its presence rule, its
session, the range of every field; what a CODE byte and an id byte name; and what the execution of a request answers. -/

namespace Sys2Proof.Machine

/-! ### Passing the checks -/

theorem find_carries_none {l : List FieldId} {fs : List Field} :
    l.find? (fun f => !carries fs f) = none ↔ ∀ f ∈ l, carries fs f = true := by
  rw [List.find?_eq_none]
  simp

/-- What the checks of R178 leave of a request they pass. -/
theorem ReqCode.check_passed {c : ReqCode} {session : Session} {area : List Byte} {fs : List Field}
    (h : c.check session area = .passed fs) :
    c.read area = .good fs ∧ (∀ f ∈ c.requiredNow fs, carries fs f = true) ∧ c.presence fs = none ∧
      (session = .closed → c.anySession = true) ∧ ∀ e ∈ fs, e.1.inRange c e.2 = true := by
  unfold ReqCode.check at h
  split at h
  · exact absurd h (by simp)
  · rename_i gs hr
    split at h
    · exact absurd h (by simp)
    · rename_i hq
      split at h
      · exact absurd h (by simp)
      · rename_i hp
        split at h
        · exact absurd h (by simp)
        · rename_i hs
          split at h
          · exact absurd h (by simp)
          · rename_i hf
            injection h with h
            subst h
            refine ⟨hr, find_carries_none.1 hq, hp, ?_, ?_⟩
            · intro e
              cases ha : c.anySession
              · exact absurd ⟨e, ha⟩ hs
              · rfl
            · intro e he
              have := List.find?_eq_none.1 hf e he
              simpa using this

theorem Serves.passed {s : State} {c : ReqCode} {r : Request} {fs : List Field} (h : Serves s c r fs) :
    c.read r.area = .good fs ∧ (∀ f ∈ c.requiredNow fs, carries fs f = true) ∧ c.presence fs = none ∧
      (s.link.session = .closed → c.anySession = true) ∧ ∀ e ∈ fs, e.1.inRange c e.2 = true :=
  ReqCode.check_passed h.2

theorem Serves.inRange {s : State} {c : ReqCode} {r : Request} {fs : List Field} (h : Serves s c r fs) :
    ∀ e ∈ fs, e.1.inRange c e.2 = true := h.passed.2.2.2.2

/-- The oldest request of the intake is the one served. -/
theorem State.dueRequest_some {s : State} {c : Option ReqCode} {r : Request} (h : s.dueRequest c = some r) :
    (∃ rest, s.link.intake = r :: rest) ∧ s.link.executes = true ∧ s.link.fromCache r = false ∧
      ReqCode.ofByte r.code = c := by
  unfold State.dueRequest at h
  split at h
  · exact absurd h (by simp)
  · rename_i q rest hi
    split at h
    · rename_i hc
      injection h with h
      subst h
      simp only [Bool.and_eq_true, Bool.not_eq_true', decide_eq_true_eq] at hc
      exact ⟨⟨rest, hi⟩, hc.1.1, hc.1.2, hc.2⟩
    · exact absurd h (by simp)

/-! ### Codes -/

/-- The request that a CODE byte names is the one with that code. -/
theorem ReqCode.ofByte_some {b : Byte} {c : ReqCode} : ReqCode.ofByte b = some c ↔ b.toNat = c.code := by
  constructor
  · intro h
    have := List.find?_some h
    exact (beq_iff_eq.1 this).symm
  · intro h
    unfold ReqCode.ofByte
    rw [h]
    cases c <;> decide

/-- A CODE byte names no request when no request has that code. -/
theorem ReqCode.ofByte_none {b : Byte} : ReqCode.ofByte b = none ↔ ∀ c : ReqCode, b.toNat ≠ c.code := by
  constructor
  · intro h c hc
    rw [ReqCode.ofByte_some.2 hc] at h
    exact absurd h (by simp)
  · intro h
    cases hx : ReqCode.ofByte b with
    | none => rfl
    | some c => exact absurd (ReqCode.ofByte_some.1 hx) (h c)

theorem ReqCode.mem_fields {c : ReqCode} {f : FieldId} : f ∈ c.required ++ c.optional ↔ c.hasField f = true := by
  simp [ReqCode.hasField]

/-- No two fields of a request have one id. -/
theorem ReqCode.codes_nodup (c : ReqCode) : ((c.required ++ c.optional).map FieldId.code).Nodup := by
  cases c <;> decide

/-- An id byte names no field of a request when no field of it has that id. -/
theorem ReqCode.fieldOf_none {c : ReqCode} {id : Byte} :
    c.fieldOf id = none ↔ ∀ f, c.hasField f = true → f.code ≠ id.toNat := by
  simp only [ReqCode.fieldOf, List.find?_eq_none, ReqCode.mem_fields, beq_iff_eq, ne_eq]

/-- The field of a request that an id byte names is the one with that id. -/
theorem ReqCode.fieldOf_some {c : ReqCode} {id : Byte} {f : FieldId} :
    c.fieldOf id = some f ↔ c.hasField f = true ∧ f.code = id.toNat := by
  constructor
  · intro h
    have hc := List.find?_some (p := fun f : FieldId => f.code == id.toNat) h
    exact ⟨ReqCode.mem_fields.1 (List.mem_of_find?_eq_some h), beq_iff_eq.1 hc⟩
  · rintro ⟨hf, hc⟩
    cases hx : c.fieldOf id with
    | none => exact absurd hc (ReqCode.fieldOf_none.1 hx f hf)
    | some g =>
      have hg : g.code = id.toNat := beq_iff_eq.1 (List.find?_some (p := fun f : FieldId => f.code == id.toNat) hx)
      rw [List.inj_on_of_nodup_map c.codes_nodup (List.mem_of_find?_eq_some hx) (ReqCode.mem_fields.2 hf)
        (hg.trans hc.symm)]

/-! ### Fields -/

theorem fieldValue_mem {fs : List Field} {f : FieldId} {v : Int} (h : fieldValue fs f = some v) : (f, v) ∈ fs := by
  unfold fieldValue at h
  cases hf : fs.find? (fun e => e.1 == f) with
  | none => rw [hf] at h; exact absurd h (by simp)
  | some e =>
    rw [hf] at h
    have hm := List.mem_of_find?_eq_some hf
    have hp := List.find?_some hf
    simp only [beq_iff_eq] at hp
    simp only [Option.map_some, Option.some.injEq] at h
    rw [← hp, ← h]
    exact hm

theorem carries_iff {fs : List Field} {f : FieldId} : carries fs f = true ↔ ∃ v, fieldValue fs f = some v := by
  unfold carries fieldValue
  constructor
  · intro h
    rw [List.any_eq_true] at h
    obtain ⟨e, he, hf⟩ := h
    cases hx : fs.find? (fun e => e.1 == f) with
    | none => exact absurd hf (List.find?_eq_none.1 hx e he)
    | some e => exact ⟨e.2, rfl⟩
  · rintro ⟨v, h⟩
    rw [List.any_eq_true]
    exact ⟨(f, v), fieldValue_mem h, by simp⟩

theorem fieldValue_none {fs : List Field} {f : FieldId} (h : carries fs f = false) : fieldValue fs f = none := by
  cases hv : fieldValue fs f with
  | none => rfl
  | some v => exact absurd (carries_iff.2 ⟨v, hv⟩) (by simp [h])

/-- A field that a served request carries has a value in its range. -/
theorem Serves.value {s : State} {c : ReqCode} {r : Request} {fs : List Field} (h : Serves s c r fs) {f : FieldId}
    (hf : carries fs f = true) : ∃ v, fieldValue fs f = some v ∧ fieldInt fs f = v ∧ f.inRange c v = true := by
  obtain ⟨v, hv⟩ := carries_iff.1 hf
  exact ⟨v, hv, by simp [fieldInt, hv], h.inRange _ (fieldValue_mem hv)⟩

/-- A field that is required whatever the others hold is required. -/
theorem ReqCode.required_now (c : ReqCode) (fs : List Field) {f : FieldId} (h : f ∈ c.required) :
    f ∈ c.requiredNow fs := by
  unfold ReqCode.requiredNow
  split
  · rename_i hc
    rw [hc.1] at h
    simp only [ReqCode.required, List.mem_cons, List.not_mem_nil, or_false] at h
    rcases h with rfl | rfl | rfl | rfl | rfl <;> simp
  · exact h

/-- A field required of the kind of request has its value, in its range. -/
theorem Serves.required {s : State} {c : ReqCode} {r : Request} {fs : List Field} (h : Serves s c r fs) {f : FieldId}
    (hf : f ∈ c.required) : ∃ v, fieldValue fs f = some v ∧ fieldInt fs f = v ∧ f.inRange c v = true :=
  h.value (h.passed.2.1 f (c.required_now fs hf))

theorem within_iff {lo hi v : Int} : within lo hi v = true ↔ lo ≤ v ∧ v ≤ hi := by
  simp [within]

/-- The number of the axis a checked AXIS value names. -/
theorem AxisId.num_ofNum {v : Int} (h : within 0 3 v = true) : ((AxisId.ofNum v).num : Int) = v := by
  rw [within_iff] at h
  have : v = 0 ∨ v = 1 ∨ v = 2 ∨ v = 3 := by omega
  rcases this with rfl | rfl | rfl | rfl <;> rfl

/-! ### Executions -/

/-- A request that passes the checks answers by its own rule, on the state without it. -/
theorem State.reply_serves {s : State} {c : ReqCode} {r : Request} {fs : List Field}
    {own : List Field → State → Answer × State} (h : Serves s c r fs) :
    (Host.Outcome.next (s.execute c own) : Host.Outcome State Fault Refusal) =
      .next (State.reply r.tag (own fs (s.setLink s.link.popIntake))) := by
  rw [State.execute_serves s c r fs own h]

theorem State.offers_setLink (s : State) (l : LinkPort) (bs : List NoticeBody) :
    (s.setLink l).offers bs = (s.offers bs).setLink l := by
  rw [State.offers_eq, State.offers_eq]
  rfl

/-- An answer behind what an Axis Controller has done. -/
theorem State.reply_take (s : State) (r : Request) (ans : Answer) (a : AxisId) (f : Axis → Taken) :
    State.reply r.tag (ans, (s.setLink s.link.popIntake).take a f) =
      ((s.setAxis a (f (s.axis a)).1).offers (f (s.axis a)).2).answered r ans := by
  have h : (s.setLink s.link.popIntake).take a f =
      (((s.setAxis a (f (s.axis a)).1).offers (f (s.axis a)).2)).setLink s.link.popIntake :=
    State.offers_setLink (s.setAxis a (f (s.axis a)).1) _ _
  rw [h]
  unfold State.reply State.answered
  simp only [State.setLink_link, State.offers_link, State.setAxis_link]
  rfl

end Sys2Proof.Machine
end

