-- ==== Sys2Proof/Laws/Windows.lean ====
section
/-! SUPPORT. What the Window Monitor does with an event, in terms of the slots it found: stores mapped entry by entry,
guards evaluated, and a loss of reference, which leaves windows UNKNOWN and does nothing else. -/

namespace Sys2Proof.Machine

/-! ### Keyed stores, entry by entry -/

theorem Table.find_of_mem {α : Type} {t : Table α} (h : Table.wf t) {k : Nat} {v : α} (hm : (k, v) ∈ t) :
    Table.find k t = some v := by
  induction t with
  | nil => cases hm
  | cons e t ih =>
    obtain ⟨j, w⟩ := e
    have hp := List.pairwise_cons.1 h
    rcases List.mem_cons.1 hm with he | hm
    · obtain ⟨rfl, rfl⟩ := Prod.mk.inj he
      simp [Table.find]
    · have : j < k := hp.1 (k, v) hm
      have hj : ¬ j = k := by omega
      simp only [Table.find, hj, if_false]
      exact ih hp.2 hm

theorem Table.mem_of_find {α : Type} {t : Table α} {k : Nat} {v : α} (h : Table.find k t = some v) : (k, v) ∈ t := by
  induction t with
  | nil => cases h
  | cons e t ih =>
    obtain ⟨j, w⟩ := e
    simp only [Table.find] at h
    split at h
    · rename_i hj
      subst hj
      cases h
      exact List.mem_cons_self
    · exact List.mem_cons_of_mem _ (ih h)

theorem Table.find_map {α : Type} (f : Nat → α → α) (k : Nat) (t : Table α) :
    Table.find k (t.map (fun e => (e.1, f e.1 e.2))) = (Table.find k t).map (f k) := by
  induction t with
  | nil => rfl
  | cons e t ih =>
    obtain ⟨j, w⟩ := e
    simp only [List.map_cons, Table.find]
    split
    · rename_i h
      subst h
      rfl
    · exact ih

/-- What is collected over a store with a written entry, where the other entries give nothing. -/
theorem Table.flatMap_put {α β : Type} {t : Table α} (h : Table.wf t) (n : Nat) (v : α) (f : Nat × α → List β)
    (hf : ∀ e ∈ t, e.1 ≠ n → f e = []) : (Table.put n v t).flatMap f = f (n, v) := by
  have hmem : (n, v) ∈ Table.put n v t := Table.mem_of_find (by rw [Table.find_put]; simp)
  have hw := Table.wf_put n v t h
  have hp : ∀ e ∈ Table.put n v t, e.1 ≠ n → f e = [] := fun e he hne => by
    rcases Table.mem_put n v t e he with rfl | he
    · exact absurd rfl hne
    · exact hf e he hne
  generalize Table.put n v t = u at hmem hw hp
  induction u with
  | nil => cases hmem
  | cons e u ih =>
    have hc := List.pairwise_cons.1 hw
    rw [List.flatMap_cons]
    rcases List.mem_cons.1 hmem with rfl | hm
    · have : u.flatMap f = [] := List.flatMap_eq_nil_iff.2 (fun d hd =>
        hp d (List.mem_cons_of_mem _ hd) (Nat.ne_of_gt (hc.1 d hd)))
      rw [this, List.append_nil]
    · rw [hp e List.mem_cons_self (Nat.ne_of_lt (hc.1 _ hm)), List.nil_append]
      exact ih hm hc.2 (fun d hd => hp d (List.mem_cons_of_mem _ hd))

theorem occupancyAt_of_mem {ws : Table Window} (h : Table.wf ws) {e : Nat × Window} (he : e ∈ ws) :
    occupancyAt ws e.1 = e.2.occupancy := by
  unfold occupancyAt
  rw [Table.find_of_mem h he]

theorem guardStateAt_of_mem {gs : Table Guard} (h : Table.wf gs) {e : Nat × Guard} (he : e ∈ gs) :
    guardStateAt gs e.1 = e.2.state := by
  unfold guardStateAt
  rw [Table.find_of_mem h he]

/-! ### Guards evaluated -/

/-- The state of a guard behind an evaluation of the picked ones. -/
def Guard.after (ws : Table Window) (pick : Guard → Bool) (g : Guard) : GuardState :=
  if pick g then g.next ws else g.state

theorem evaluate_eq (ws : Table Window) (pick : Guard → Bool) (gs : Table Guard) :
    evaluate ws pick gs = gs.map (fun e => (e.1, { e.2 with state := e.2.after ws pick })) := by
  refine List.map_congr_left (fun e _ => ?_)
  unfold Guard.after
  split <;> rfl

/-- The GUARD notices of an evaluation: one for each guard that changes. -/
theorem guardNotices_evaluate {gs : Table Guard} (h : Table.wf gs) (ws : Table Window) (pick : Guard → Bool) :
    guardNotices gs (evaluate ws pick gs) =
      gs.flatMap (fun e =>
        if e.2.after ws pick = e.2.state then [] else [.guard e.1 (e.2.after ws pick)]) := by
  rw [evaluate_eq]
  unfold guardNotices
  rw [List.flatMap_map]
  refine List.flatMap_congr (fun e he => ?_)
  simp only [guardStateAt_of_mem h he]

/-- The stop claims of an evaluation: one to each stop axis of each guard that trips. -/
theorem stopClaims_evaluate {gs : Table Guard} (h : Table.wf gs) (ws : Table Window) (pick : Guard → Bool) :
    stopClaims gs (evaluate ws pick gs) =
      gs.flatMap (fun e =>
        if e.2.state = .clear ∧ e.2.after ws pick = .tripped then e.2.stopAxes.map (fun b => (b, .stop)) else []) := by
  rw [evaluate_eq]
  unfold stopClaims
  rw [List.flatMap_map]
  refine List.flatMap_congr (fun e he => ?_)
  simp only [guardStateAt_of_mem h he, and_comm]

/-- The GUARD notice of a written guard: one when its slot changes state. -/
theorem guardNotices_put {gs : Table Guard} (h : Table.wf gs) (n : Nat) (g : Guard) :
    guardNotices gs (Table.put n g gs) = if g.state = guardStateAt gs n then [] else [.guard n g.state] := by
  refine Table.flatMap_put h n g _ (fun e he _ => ?_)
  rw [guardStateAt_of_mem h he]
  simp

/-- The stop claims of a written guard: one to each stop axis when its slot trips. -/
theorem stopClaims_put {gs : Table Guard} (h : Table.wf gs) (n : Nat) (g : Guard) :
    stopClaims gs (Table.put n g gs) =
      if g.state = .tripped ∧ guardStateAt gs n = .clear then g.stopAxes.map (fun a => (a, .stop)) else [] := by
  refine Table.flatMap_put h n g _ (fun e he _ => ?_)
  rw [guardStateAt_of_mem h he]
  cases e.2.state <;> simp

/-! ### Windows tested -/

theorem crossingOf_self (o : Occupancy) : crossingOf o o = none := by cases o <;> rfl

theorem crossingOf_unknown (o : Occupancy) : crossingOf o .unknown = none := by cases o <;> rfl

theorem retest_eq (a : AxisId) (x : Axis) (ws : Table Window) :
    retest a x ws =
      ws.map (fun e => (e.1, if e.2.axis = a then { e.2 with occupancy := e.2.test x } else e.2)) := by
  refine List.map_congr_left (fun e _ => ?_)
  split <;> rfl

theorem occupancyAt_retest (a : AxisId) (x : Axis) (ws : Table Window) (n : Nat) :
    occupancyAt (retest a x ws) n =
      match Table.find n ws with
      | none => .unknown
      | some v => if v.axis = a then v.test x else v.occupancy := by
  unfold occupancyAt
  have := Table.find_map (fun _ v => if v.axis = a then { v with occupancy := v.test x } else v) n ws
  rw [retest_eq, this]
  cases Table.find n ws with
  | none => rfl
  | some v => simp only [Option.map_some]; split <;> rfl

/-- What happened to a window of the slots found, when the windows of an axis are tested. -/
theorem crossedAt_retest {ws : Table Window} (h : Table.wf ws) (a : AxisId) (x : Axis) {e : Nat × Window} (he : e ∈ ws) :
    crossedAt ws (retest a x ws) e.1 =
      if e.2.axis = a then crossingOf e.2.occupancy (e.2.test x) else crossingOf e.2.occupancy e.2.occupancy := by
  unfold crossedAt
  rw [occupancyAt_of_mem h he, occupancyAt_retest, Table.find_of_mem h he]
  show crossingOf _ (if _ then _ else _) = _
  split <;> rfl

/-- The WINDOW notices when the windows of an axis are tested: entries and leaves that REPORT asks for. -/
theorem windowNotices_retest {ws : Table Window} (h : Table.wf ws) (a : AxisId) (x : Axis) :
    windowNotices x.position ws (retest a x ws) =
      match x.position with
      | none => []
      | some p =>
        ws.flatMap (fun e =>
          if (e.2.axis = a ∧ e.2.occupancy ≠ .occupied ∧ e.2.test x = .occupied) ∧
              (e.2.report = .enter ∨ e.2.report = .both) then [.window e.1 .enter p]
          else if (e.2.axis = a ∧ e.2.occupancy = .occupied ∧ e.2.test x = .vacant) ∧
              (e.2.report = .leave ∨ e.2.report = .both) then [.window e.1 .leave p]
          else []) := by
  unfold windowNotices
  rw [retest_eq, List.flatMap_map]
  cases hp : x.position with
  | none => simp
  | some p =>
    refine List.flatMap_congr (fun e he => ?_)
    have hc := crossedAt_retest h a x he
    rw [retest_eq] at hc
    simp only []
    rw [hc]
    have h2 : e.2.test x ≠ .unknown := by
      unfold Window.test
      rw [hp]
      simp only
      split <;> simp
    by_cases ha : e.2.axis = a
    · simp only [ha, if_true, true_and]
      cases h1 : e.2.occupancy <;> cases h3 : e.2.test x <;> cases h4 : e.2.report <;>
        simp_all [crossingOf, Report.asks]
    · simp [ha, crossingOf_self]

/-- The limit claims when the windows of an axis are tested: one for each entry of a window with a limit role. -/
theorem limitClaims_retest {ws : Table Window} (h : Table.wf ws) (a : AxisId) (x : Axis) :
    limitClaims (fun n _ => decide (crossedAt ws (retest a x ws) n = some .enter)) (retest a x ws) =
      ws.flatMap (fun e =>
        match e.2.limitRole with
        | .none => []
        | .noPositive =>
          if e.2.axis = a ∧ e.2.occupancy ≠ .occupied ∧ e.2.test x = .occupied then [(a, .limit .positive)] else []
        | .noNegative =>
          if e.2.axis = a ∧ e.2.occupancy ≠ .occupied ∧ e.2.test x = .occupied then [(a, .limit .negative)] else []) := by
  unfold limitClaims
  conv_lhs => rw [retest_eq, List.flatMap_map]
  refine List.flatMap_congr (fun e he => ?_)
  have hc := crossedAt_retest h a x he
  rw [retest_eq] at hc
  simp only []
  rw [hc]
  by_cases ha : e.2.axis = a
  · simp only [ha, if_true, true_and]
    cases h4 : e.2.limitRole <;> cases h1 : e.2.occupancy <;> cases h3 : e.2.test x <;>
      simp_all [crossingOf, LimitRole.forbids]
  · cases h4 : e.2.limitRole <;> simp_all [crossingOf_self, LimitRole.forbids]

/-- The WINDOW notice of a written window: one when its slot crosses and REPORT asks for it. -/
theorem windowNotices_put {ws : Table Window} (h : Table.wf ws) (position : Option Int) (n : Nat) (v : Window) :
    windowNotices position ws (Table.put n v ws) =
      match crossingOf (occupancyAt ws n) v.occupancy, position with
      | some c, some p => if v.report.asks c then [.window n c p] else []
      | _, _ => [] := by
  have hn : ∀ m, m ≠ n → crossedAt ws (Table.put n v ws) m = none := fun m hm => by
    have : occupancyAt (Table.put n v ws) m = occupancyAt ws m := by
      unfold occupancyAt
      rw [Table.find_put, if_neg hm]
    unfold crossedAt
    rw [this, crossingOf_self]
  have hv : crossedAt ws (Table.put n v ws) n = crossingOf (occupancyAt ws n) v.occupancy := by
    unfold crossedAt
    congr 1
    unfold occupancyAt
    rw [Table.find_put, if_pos rfl]
  refine (Table.flatMap_put h n v _ (fun e _ hne => ?_)).trans ?_
  · rw [hn e.1 hne]
  · rw [hv]
    all_goals rfl

/-- The limit claim of a written window: one when it is OCCUPIED and carries a limit role. -/
theorem limitClaims_put {ws : Table Window} (h : Table.wf ws) (n : Nat) (v : Window) :
    limitClaims (fun m w => decide (m = n) && decide (w.occupancy = .occupied)) (Table.put n v ws) =
      if v.occupancy = .occupied then
        match v.limitRole with
        | .none => []
        | .noPositive => [(v.axis, .limit .positive)]
        | .noNegative => [(v.axis, .limit .negative)]
      else [] := by
  refine (Table.flatMap_put h n v _ (fun e _ hne => ?_)).trans ?_
  · cases e.2.limitRole.forbids <;> simp [hne]
  · cases v.limitRole <;> cases ho : v.occupancy <;> simp [ho, LimitRole.forbids]

/-! ### A loss of reference -/

theorem Window.test_unreferenced {x : Axis} (h : x.counting.reference = .unreferenced) (v : Window) :
    v.test x = .unknown := by
  unfold Window.test Axis.position
  rw [h]

theorem retest_unreferenced {x : Axis} (h : x.counting.reference = .unreferenced) (a : AxisId) (ws : Table Window) :
    retest a x ws =
      ws.map (fun e => if e.2.axis = a then (e.1, { e.2 with occupancy := .unknown }) else e) := by
  unfold retest
  simp only [Window.test_unreferenced h]

/-- Behind a loss of reference a window is as it was, or UNKNOWN. -/
theorem occupancyAt_unreferenced {x : Axis} (h : x.counting.reference = .unreferenced) (a : AxisId) (ws : Table Window)
    (n : Nat) : occupancyAt (retest a x ws) n = occupancyAt ws n ∨ occupancyAt (retest a x ws) n = .unknown := by
  rw [occupancyAt_retest]
  unfold occupancyAt
  cases Table.find n ws with
  | none => exact Or.inl rfl
  | some v =>
    simp only [Window.test_unreferenced h]
    split
    · exact Or.inr rfl
    · exact Or.inl rfl

theorem crossedAt_unreferenced {x : Axis} (h : x.counting.reference = .unreferenced) (a : AxisId) (ws : Table Window)
    (n : Nat) : crossedAt ws (retest a x ws) n = none := by
  unfold crossedAt
  rcases occupancyAt_unreferenced h a ws n with e | e
  · rw [e, crossingOf_self]
  · rw [e, crossingOf_unknown]

/-- The slots where no TRIPPED guard has a VACANT member (R131, R132). -/
def WindowMonitor.Sound (w : WindowMonitor) : Prop :=
  ∀ e ∈ w.guards, e.2.state = .tripped → ∀ n ∈ e.2.members, occupancyAt w.windows n ≠ .vacant

/-- No guard changes by a loss of reference. -/
theorem evaluate_unreferenced {x : Axis} (h : x.counting.reference = .unreferenced) (a : AxisId) (w : WindowMonitor)
    (hw : w.Sound) :
    evaluate (retest a x w.windows)
      (fun g => g.members.any (fun n => decide (occupancyAt w.windows n ≠ occupancyAt (retest a x w.windows) n)))
      w.guards = w.guards := by
  refine (List.map_congr_left (fun e he => ?_)).trans (List.map_id _)
  show (if _ then _ else _) = e
  split
  · rename_i hp
    obtain ⟨n, hn, hne⟩ := List.any_eq_true.1 hp
    have hu : occupancyAt (retest a x w.windows) n = .unknown := by
      rcases occupancyAt_unreferenced h a w.windows n with k | k
      · exact absurd k.symm (of_decide_eq_true hne)
      · exact k
    have hs : e.2.next (retest a x w.windows) = e.2.state := by
      unfold Guard.next
      cases hst : e.2.state with
      | clear =>
        have : ¬ (e.2.members.all (fun n => decide (occupancyAt (retest a x w.windows) n = .occupied)) = true) := by
          intro hall
          have := of_decide_eq_true (List.all_eq_true.1 hall n hn)
          rw [hu] at this
          cases this
        simp only [this]
        simp
      | tripped =>
        have : ¬ (e.2.members.any (fun n => decide (occupancyAt (retest a x w.windows) n = .vacant)) = true) := by
          intro hany
          obtain ⟨m, hm, hv⟩ := List.any_eq_true.1 hany
          have hv := of_decide_eq_true hv
          rcases occupancyAt_unreferenced h a w.windows m with k | k
          · exact hw e he hst m hm (k.symm.trans hv)
          · rw [k] at hv
            cases hv
        simp only [this]
        simp
    rw [hs]
  · rfl

/-- A Window Monitor that takes an event in which nothing crosses and no guard changes writes the windows, and that is
all. -/
theorem State.monitorTakes_quiet (s : State) (p : Option Int) (ws : Table Window) (k : Guard → Bool)
    (l : Nat → Window → Bool) (hc : ∀ n, crossedAt s.monitor.windows ws n = none)
    (hg : evaluate ws k s.monitor.guards = s.monitor.guards) (hl : ∀ n v, l n v = false)
    (hs : Table.wf s.monitor.guards) :
    s.monitorTakes p ws k l = s.setMonitor { s.monitor with windows := ws } := by
  have hn : windowNotices p s.monitor.windows ws = [] := by
    unfold windowNotices
    simp [hc]
  have hgn : guardNotices s.monitor.guards s.monitor.guards = [] := by
    unfold guardNotices
    rw [List.flatMap_eq_nil_iff]
    intro e he
    simp [guardStateAt_of_mem hs he]
  have hst : stopClaims s.monitor.guards s.monitor.guards = [] := by
    unfold stopClaims
    rw [List.flatMap_eq_nil_iff]
    intro e he
    rw [guardStateAt_of_mem hs he]
    split
    · rename_i h
      rw [h.1] at h
      cases h.2
    · rfl
  have hlim : limitClaims l ws = [] := by
    unfold limitClaims
    rw [List.flatMap_eq_nil_iff]
    intro e _
    simp only [hl]
    cases e.2.limitRole.forbids <;> rfl
  have hr : releases s.monitor { s.monitor with windows := ws } = [] := by
    unfold releases
    have hf : AxisId.all.filter (fun a => s.monitor.guarded a && !({ s.monitor with windows := ws } : WindowMonitor).guarded a) = [] := by
      rw [List.filter_eq_nil_iff]
      intro a _
      show ¬ (s.monitor.guarded a && !s.monitor.guarded a) = true
      cases s.monitor.guarded a <;> simp
    rw [hf]
    rfl
  unfold State.monitorTakes
  simp only [hg]
  rw [hn, hgn, hst, hlim, hr]
  rfl

/-- On an UNREFERENCED axis the Window Monitor makes the windows UNKNOWN, and that is all. -/
theorem State.windowsOf_unreferenced {s : State} {a : AxisId} (h : (s.axis a).counting.reference = .unreferenced)
    (hg : Table.wf s.monitor.guards) (hw : s.monitor.Sound) : s.windowsOf a = s.windowsUnknown a := by
  unfold State.windowsOf
  refine (State.monitorTakes_quiet s _ _ _ _ (crossedAt_unreferenced h a _) (evaluate_unreferenced h a _ hw)
    (fun n v => ?_) hg).trans ?_
  · simp [crossedAt_unreferenced h a]
  · rw [retest_unreferenced h]
    rfl

theorem State.MonitorOk.sound {s : State} (h : s.MonitorOk) : s.monitor.Sound := h.1.tripped

theorem State.MonitorOk.guards {s : State} (h : s.MonitorOk) : Table.wf s.monitor.guards := h.2.stores.2.2.2

theorem State.setAxis_self (s : State) (a : AxisId) : s.setAxis a (s.axis a) = s := by cases a <;> rfl

/-- The axes and the other parts are the state. -/
theorem State.ext_axis {s t : State} (ha : ∀ a, s.axis a = t.axis a) (ht : s.tables = t.tables)
    (hm : s.monitor = t.monitor) (hn : s.notices = t.notices) (hl : s.link = t.link) (hb : s.timebase = t.timebase)
    (hc : s.micros = t.micros) (hp : s.pending = t.pending) : s = t := by
  obtain ⟨⟨a0, a1, a2, a3⟩, _, _, _, _, _, _, _⟩ := s
  obtain ⟨⟨b0, b1, b2, b3⟩, _, _, _, _, _, _, _⟩ := t
  have h0 : a0 = b0 := ha .axis0
  have h1 : a1 = b1 := ha .axis1
  have h2 : a2 = b2 := ha .axis2
  have h3 : a3 = b3 := ha .axis3
  simp only at ht hm hn hl hb hc hp
  subst h0 h1 h2 h3 ht hm hn hl hb hc hp
  rfl

theorem CountingUnit.dropped_unreferenced {c : CountingUnit} (h : c.reference = .unreferenced) : c.dropped = c := by
  obtain ⟨_, _, r, _, _, _, _, _, _, _⟩ := c
  simp only at h
  subst h
  rfl

theorem CountingUnit.dropped_referenced {c : CountingUnit} (h : c.reference = .referenced) :
    c.dropped = { c with reference := .unreferenced, baseline := none } := by
  unfold dropped
  rw [h]
  rfl

theorem State.lost_unreferenced {s : State} {a : AxisId} (h : (s.axis a).counting.reference = .unreferenced)
    (x : Axis) : s.lost a x = s.setAxis a x := by
  unfold State.lost
  rw [h]
  rfl

theorem State.lost_referenced {s : State} {a : AxisId} (h : (s.axis a).counting.reference = .referenced)
    (x : Axis) : s.lost a x = (s.setAxis a x).windowsUnknown a := by
  unfold State.lost
  rw [if_pos h]

@[simp] theorem State.windowsUnknown_axis (s : State) (a b : AxisId) : (s.windowsUnknown a).axis b = s.axis b := rfl

/-- A loss of reference in the event of an axis leaves that axis as the event leaves it, and every other as it was. -/
@[simp] theorem State.lost_axis (s : State) (a b : AxisId) (x : Axis) :
    (s.lost a x).axis b = if b = a then x else s.axis b := by
  unfold State.lost
  split <;> simp

/-- All a loss of reference does (R10): the reference and the baseline go, and the windows become UNKNOWN. -/
theorem State.loseReference_eq {s : State} {a : AxisId} (hg : Table.wf s.monitor.guards) (hw : s.monitor.Sound) :
    s.loseReference a = s.lost a { s.axis a with counting := (s.axis a).counting.dropped } := by
  unfold State.loseReference
  cases h : (s.axis a).counting.reference with
  | unreferenced =>
    rw [State.lost_unreferenced h, CountingUnit.dropped_unreferenced h]
    exact (State.setAxis_self s a).symm
  | referenced =>
    rw [State.lost_referenced h, CountingUnit.dropped_referenced h]
    exact State.windowsOf_unreferenced (by simp) hg hw

/-- A fault entered in the record changes the Counting Unit alone, and not its reference. -/
theorem Axis.recordFault_fst (a : AxisId) (now : Time) (k : FaultKind) (x : Axis) :
    (Axis.recordFault a now k x).1 = { x with counting := (Axis.recordFault a now k x).1.counting } ∧
      (Axis.recordFault a now k x).1.counting.reference = x.counting.reference := by
  unfold Axis.recordFault
  split
  · exact ⟨rfl, rfl⟩
  · split <;> exact ⟨rfl, rfl⟩

/-- All a counting fault does when it is raised (R10, R12 to R14, R16, R17): the record with its notice, the loss of
reference, the claim. -/
theorem State.raise_eq {s : State} {a : AxisId} (hg : Table.wf s.monitor.guards) (hw : s.monitor.Sound)
    (k : FaultKind) :
    s.raise a k =
      (s.lost a { s.axis a with
        counting := (Axis.recordFault a s.timebase k (s.axis a)).1.counting.dropped
        faultClaims := (s.axis a).faultClaims ++ [k] }).offers (Axis.recordFault a s.timebase k (s.axis a)).2 := by
  obtain ⟨h1, h2⟩ := Axis.recordFault_fst a s.timebase k (s.axis a)
  have hl : (s.take a (Axis.recordFault a s.timebase k)).loseReference a =
      (s.take a (Axis.recordFault a s.timebase k)).lost a
        { (s.take a (Axis.recordFault a s.timebase k)).axis a with
          counting := ((s.take a (Axis.recordFault a s.timebase k)).axis a).counting.dropped } :=
    State.loseReference_eq (by simpa using hg) (by simpa using hw)
  unfold State.raise
  rw [hl]
  unfold State.lost
  simp only [State.take_axis, if_true]
  rw [h2]
  split
  all_goals
    apply State.ext_axis
    · intro b
      by_cases hb : b = a
      · subst hb
        simp
        rw [h1]
        simp
      · simp [hb]
    all_goals simp [State.windowsUnknown, State.offers_eq]

/-! ### The Link Port beside it -/

theorem State.sends_setLink (s : State) (l : LinkPort) (cs : List (AxisId × Claim)) :
    (s.setLink l).sends cs = (s.sends cs).setLink l := by
  induction cs generalizing s with
  | nil => rfl
  | cons c cs ih => exact ih (s.send c.1 c.2)

theorem State.monitorTakes_setLink (s : State) (l : LinkPort) (p : Option Int) (ws : Table Window) (k : Guard → Bool)
    (m : Nat → Window → Bool) : (s.setLink l).monitorTakes p ws k m = (s.monitorTakes p ws k m).setLink l := by
  unfold State.monitorTakes
  rw [← State.sends_setLink, ← State.offers_setLink]
  rfl

/-- What the Window Monitor does with an event leaves the Link Port out. -/
theorem State.windowsOf_setLink (s : State) (l : LinkPort) (a : AxisId) :
    (s.setLink l).windowsOf a = (s.windowsOf a).setLink l :=
  State.monitorTakes_setLink ..

end Sys2Proof.Machine
end

