-- ==== Sys2Proof/Tests/Slice0.lean ====
section
/-! SUPPORT. Tests on small states: the well-formedness check refuses each ill-formed command, a few steps answer what the
spec's tables give, and for every statement of Certificates/Slice0/Obligations.lean some state meets its hypotheses. -/

namespace Sys2Proof.Tests

open Sys2Proof.Machine

/-! ### States -/

/-- The part after power-up with an OPEN session. -/
def opened : State := { State.reset with link := { State.reset.link with session := .opened } }

/-- The request of a kind with some fields, under TAG 7. -/
def req (c : ReqCode) (fs : List Field) : Request := ⟨false, 7, BitVec.ofNat 8 c.code, fs.flatMap encodeField⟩

/-- A state whose intake holds one request. -/
def ask (s : State) (c : ReqCode) (fs : List Field) : State :=
  { s with link := { s.link with intake := [req c fs] } }

/-- The OPEN part with a given axis 0 and one request. -/
def asks (x : Axis) (c : ReqCode) (fs : List Field) : State := ask (opened.setAxis .axis0 x) c fs

/-- An axis after reset. -/
def bare : Axis := Axis.reset .initial

/-- A DRIVEN LINEAR axis, REFERENCED at position 0. -/
def driven : Axis :=
  { bare with
    config := { bare.config with role := .driven }
    counting := { bare.counting with reference := .referenced } }

/-- The same on a ROTARY axis of modulus 16. -/
def rotary : Axis := { driven with config := { driven.config with kind := .rotary, modulus := 16 } }

/-- An order to position 1000 with profile 0. -/
def order (tag : Nat) : Order := ⟨tag, .target 1000 0, none, .pause, true⟩

/-- A profile with S 300, C 100, W 5. -/
def profile : Profile := ⟨300, 100, 5, .either, 50, 200, 1, 30⟩

/-- The order with tag 1 as the active one, in a substate with a remaining distance. -/
def active (sub : Substate) (d : Int) : ActiveOrder :=
  ⟨order 1, 1000, 0, profile, 200, false, 0, [], some ⟨30000, 0⟩, sub, .positive, d, some .positive⟩

/-- The driven axis in a motion state with given lines. -/
def inState (m : Motion) (l : Lines) : Axis := { driven with motion := m, lines := l }

/-- A homing run of a method in a substate, qualifying in the positive direction. -/
def run (m : Method) (sub : HomingSubstate) : Motion := .homing ⟨m, some .negative, .positive, 0, false, sub, ⟨60000, 0⟩⟩

/-- A jog in the positive direction. -/
def jogging (pending : Bool) : Motion := .jogging ⟨.positive, .creep, ⟨500, 0⟩, pending⟩

/-- Running in the positive direction at creep. -/
def moving : Axis := inState (.moving (active (.slow .normal) 200)) (.run .positive false)

/-- A window of axis 0 that holds positions 0 to 9. -/
def window (o : Occupancy) : Window := ⟨.axis0, 0, 9, 1, .both, .noPositive, o⟩

/-- A state with the given windows and guards. -/
def watching (s : State) (ws : Table Window) (gs : Table Guard) : State := { s with monitor := ⟨ws, gs, 0⟩ }

/-- The part with an axis 0, two windows of that axis, a guard over both that stops axis 1, and one request. -/
def under (x : Axis) (o : Occupancy) (c : ReqCode) (fs : List Field) : State :=
  ask (watching (opened.setAxis .axis0 x) [(1, window o), (2, window o)] [(1, ⟨[1, 2], [.axis1], .clear⟩)]) c fs

/-- Such a part keeps the invariants of windows and guards. -/
theorem monitorOk_under {x : Axis} {o : Occupancy} {c : ReqCode} {fs : List Field} (h : o = (window o).test x)
    (hq : x.moveQueue.length ≤ 8 ∧ (x.moveQueue.map (·.tag)).Nodup ∧ x.log.ring.length ≤ 8) :
    (under x o c fs).MonitorOk := by
  refine ⟨⟨fun e he => ?_, fun e he n hn => ?_, fun e he => ?_, BitVec.zero_and⟩,
    ⟨fun a => ?_, fun a => ?_, fun a => ?_, Nat.zero_le _, List.Pairwise.nil, List.Pairwise.nil,
      by simp [Table.wf, under, ask, watching], List.pairwise_singleton _ _⟩⟩
  · rcases List.mem_cons.mp he with rfl | he
    · exact h
    · cases List.mem_singleton.mp he
      exact h
  · cases List.mem_singleton.mp he
    rcases List.mem_cons.mp hn with rfl | hn
    · rfl
    · cases List.mem_singleton.mp hn
      rfl
  · cases List.mem_singleton.mp he
    exact nofun
  · cases a
    exacts [hq.1, Nat.zero_le _, Nat.zero_le _, Nat.zero_le _]
  · cases a
    exacts [hq.2.1, List.nodup_nil, List.nodup_nil, List.nodup_nil]
  · cases a
    exacts [hq.2.2, Nat.zero_le _, Nat.zero_le _, Nat.zero_le _]

/-- A notice that reports a capture on axis 0. -/
def notice (n : Nat) (sent : Bool) : Notice := ⟨n, 0, .captureWaiting .axis0, sent⟩

/-! ### Well-formedness -/

theorem test_wellFormed_refuses_keepaliveExpiry :
    ¬ (Instr.keepaliveExpiry [.linkPort, .linkPort] ⟨0, ⟨false, false⟩⟩).WellFormed := by decide

theorem test_wellFormed_refuses_countEdge :
    ¬ (Instr.countEdge .axis0 ⟨true, false⟩ [.windowMonitor, .captureLog, .windowMonitor]).WellFormed := by decide

theorem test_wellFormed_refuses_indexMark :
    ¬ (Instr.indexMark .axis1 none [.axisController .axis1, .axisController .axis1]).WellFormed := by decide

theorem test_wellFormed_refuses_senseEdge :
    ¬ (Instr.senseEdge .axis2 true [.captureLog, .captureLog]).WellFormed := by decide

theorem test_wellFormed_accepts :
    (Instr.senseEdge .axis2 true [.captureLog, .windowMonitor, .axisController .axis2]).WellFormed ∧
      Instr.ping.WellFormed := by decide

/-! ### Steps -/

/-- No word spells a command. -/
theorem test_decode_none : decodeTableWord 32 0x5A = none := by decide

/-- PING in a CLOSED session is answered with SESSION. -/
theorem test_ping_closed :
    exec .ping (ask State.reset .ping []) =
      .next ((ask State.reset .ping []).answered (req .ping []) ⟨.ok, [(.session, 0)], [], []⟩) := by
  refine congrArg Host.Outcome.next ?_
  decide +kernel

/-- A PING frame, byte by byte, is the frame SYNC, LEN 3, REQUEST, TAG 7, code 3 and its CRC. -/
theorem test_frame_of_ping : frameOf [1, 7, 3] = [0x5A, 3, 1, 7, 3, 0x81, 0xD8] := by decide +kernel

/-- A reply's own fields in increasing id, a negative value in two's complement, a group from its leading field. -/
theorem test_reply_body :
    (⟨7, ⟨.ok, [(.position, -2), (.axis, 3)], [[(.station, 258), (.axis, 0)]], [(.next, 1)]⟩⟩ : Reply).frameBody =
      [3, 7, 0] ++ [1, 1, 3] ++ [46, 4, 0xFE, 0xFF, 0xFF, 0xFF] ++ [80, 2, 2, 1] ++ [1, 1, 0] ++ [86, 2, 1, 0] := by
  decide +kernel

/-- The power-up STARTUP notice as it goes on the line. -/
theorem test_startup_body :
    (⟨1, 0, .startup .power, false⟩ : Notice).frameBody = [4, 1, 0, 0, 0, 0, 0, 1, 22, 1, 1] := by decide +kernel

/-- A WATCHED axis takes no order. -/
theorem test_enqueue_watched :
    ∃ t, exec .enqueue (asks bare .enqueue [(.axis, 0), (.orderTag, 1), (.target, 5), (.profile, 0)]) = .next t ∧
      t.link.replies = [⟨7, ⟨.wrongState, [], [], []⟩⟩] := ⟨_, rfl, by decide +kernel⟩

/-- At the cut distance the lines of a normal leg turn off, and the axis coasts. -/
theorem test_cut :
    (Axis.positionMoved .axis0 0 (fun _ => false) .positive
      (inState (.moving (active (.slow .normal) 101)) (.run .positive false))).1.lines = .off := by decide +kernel

/-- On a ROTARY axis of modulus 16 the shortest way from 15 to 1 is two counts forward. -/
theorem test_rotary_aim : aimRotary .either .shortest 16 0 15 1 = ⟨.positive, 2⟩ := by decide

/-! ### Witnesses: the statements' hypotheses are met -/

theorem test_witness_StepRunsTheFrontCommand :
    { State.reset with pending := [.ping, .hold] }.pending = Instr.ping :: [.hold] := rfl

theorem test_witness_EmptyQueueTakesOwnEventOrTick :
    opened.pending = [] ∧ opened.ownCommand = some .noticeFrameStart ∧ State.reset.ownCommand = none := by
  decide +kernel

/-- The axis 0 ran when RESETN went low, and RESETN is low. -/
def heldLow : State :=
  { State.reset with link := { State.reset.link with resetnLow := true } }.setAxis .axis0
    { bare with lockout := some ⟨.negative, 0, some ⟨200, 60000⟩, 0⟩ }

theorem test_witness_ResetTakesTheResetState :
    ((opened.setAxis .axis0 moving).axis .axis0).lines = .run .positive false ∧
      ((opened.axis .axis0).lines = .off ∧ opened.link.resetnLow = false) ∧
      ((heldLow.axis .axis0).lines = .off ∧ heldLow.link.resetnLow = true ∧
        (heldLow.axis .axis0).lockout = some ⟨.negative, 0, some ⟨200, 60000⟩, 0⟩) := by decide +kernel

/-- The OPEN part with axis 0 moving, its stall timer of 50 ms at some age in microseconds and its line timer just started. -/
def timed (age : Nat) : State :=
  opened.setAxis .axis0
    { moving with stall := some ⟨50, age⟩, counting := { moving.counting with lineTimer := some ⟨1, 0⟩ } }

theorem test_witness_TimeMovesOnlyTimers :
    ((timed 50998).mayRun 1 = true ∧ (timed 50998).mayRun 2 = false ∧ (timed 0).mayRun 1999 = true ∧
      (timed 0).mayRun 2000 = false ∧ (timed 51000).mayRun 0 = true) ∧
    (((timed 0).axis .axis0).stall = some ⟨50, 0⟩ ∧ (timed 0).mayRun ((⟨50, 0⟩ : Timer).wait 0) = false ∧
      (timed 0).mayRun ((⟨1, 0⟩ : Timer).wait 999) = true ∧ (timed 0).mayRun ((⟨1, 0⟩ : Timer).wait 1000) = false) := by decide +kernel

/-- The OPEN part with a jog on axis 0, its deadman of 500 ms and its stall timer of 501 ms at some ages. -/
def jogged (deadman stall : Nat) : State :=
  opened.setAxis .axis0
    { inState (.jogging ⟨.positive, .creep, ⟨500, deadman⟩, false⟩) (.run .positive false) with stall := some ⟨501, stall⟩ }

/-- Started together, the deadman has to expire before the stall timer; started half a millisecond later, it may expire
behind it (R199). -/
theorem test_expiries_in_their_turn :
    exec (.stallTimerExpiry .axis0 0) (jogged 0 0) = .next (jogged 0 0) ∧
      (∃ t, exec (.deadmanExpiry .axis0 999) (jogged 0 0) = .next t ∧ (t.axis .axis0).motion = .held) ∧
      ∃ t, exec (.stallTimerExpiry .axis0 0) (jogged 0 500) = .next t ∧ (t.axis .axis0).motion = .faulted :=
  ⟨congrArg Host.Outcome.next (State.expire_out (t := ⟨501, 0⟩) (by decide +kernel) _), ⟨_, rfl, by decide +kernel⟩, ⟨_, rfl, by decide +kernel⟩⟩

theorem test_witness_EveryCommandAnswersAndNoRunStops :
    opened.dueRequest (some .ping) = none ∧ opened.dueRequest none = none ∧ opened.link.intake.head? = none ∧
      opened.link.completed = [] ∧ opened.link.replies = [] ∧ State.reset.link.session = .closed ∧
      (opened.axis .axis0).queue = [] ∧ (opened.axis .axis0).faultClaims = [] ∧
      { driven with claims := [.limit .positive] }.claims.head? ≠ some .stop ∧
      { driven with claims := [.stop] }.claims.head? = some .stop := by decide +kernel

/-- A frame on the line that is the RESTART reply's. -/
def restarting : State :=
  { opened with link := { opened.link with transmitter := some ⟨[0x5A], ⟨4, 0⟩⟩, restart := .replySending } }

/-- A RESTART reply that waits, under a keepalive. -/
def restartWaits : State :=
  { opened with
    link :=
      { opened.link with
        keepalive := some ⟨100, 0⟩, restart := .replyWaiting, replies := [⟨7, ⟨.ok, [], [], []⟩⟩] } }

theorem test_witness_ResetGivesTheResetConfiguration :
    (restarting.link.transmitter = some ⟨[0x5A], ⟨4, 0⟩⟩ ∧ restarting.link.restart = .replySending ∧
      restarting.mayRun ((⟨4, 0⟩ : Timer).wait 999) = true) ∧
    (restartWaits.link.keepalive = some ⟨100, 0⟩ ∧ restartWaits.link.session = .opened ∧
      restartWaits.link.restart = .replyWaiting ∧ restartWaits.mayRun ((⟨100, 0⟩ : Timer).wait 999) = true) := by
  decide +kernel

theorem test_witness_StepsKeepTheTimers : opened.TimersOk ∧ (timed 50999).TimersOk :=
  ⟨by unfold State.TimersOk; decide +kernel, by unfold State.TimersOk; decide +kernel⟩

theorem test_step_opened : ∃ t, step opened = .next t := ⟨_, rfl⟩

theorem test_witness_StepsKeepTheNoticeQueue : opened.notices.Ok :=
  ⟨by decide +kernel, by decide +kernel, by decide +kernel, by decide +kernel, by decide +kernel, by decide +kernel,
    by decide +kernel, by decide +kernel⟩

theorem test_witness_StepsKeepTheLinkPort : opened.link.Ok ∧ heldLow.link.Ok :=
  ⟨⟨trivial, by decide, by decide, by decide, by decide, by decide, by decide, by decide, by decide, by decide, nofun⟩,
    ⟨trivial, by decide, by decide, by decide, by decide, by decide, by decide, by decide, by decide, by decide,
      by decide⟩⟩

theorem test_witness_StepsKeepTheLines : opened.LinesOk := fun a => by
  cases a <;>
    exact { fit := rfl, permitted := fun _ _ _ => rfl, stall := fun _ => rfl, watched := fun _ => ⟨rfl, rfl, trivial⟩ }

theorem test_witness_StepsKeepWindowsAndGuards :
    (watching (opened.setAxis .axis0 driven) [(1, window .occupied)]
      [(1, ⟨[1, 1], [.axis0], .tripped⟩)]).WindowsOk :=
  ⟨by decide +kernel, by decide +kernel, by decide +kernel, by decide +kernel⟩

theorem test_witness_StepsKeepTheClosedSessionQuiet :
    State.ClosedQuiet { opened with link := { opened.link with session := .closed } } := fun _ a => by
  cases a <;> exact ⟨rfl, fun _ => rfl⟩

theorem test_witness_StepsKeepTheCapacities : opened.CapacitiesOk :=
  ⟨fun a => by cases a <;> decide, fun a => by cases a <;> decide, fun a => by cases a <;> decide, by decide,
    by decide⟩

theorem test_witness_StepsKeepTheCapacities_keys :
    (watching (opened.setAxis .axis0 driven) [(1, window .occupied), (48, window .occupied)]
      [(12, ⟨[1, 1], [.axis0], .tripped⟩)]).KeysOk :=
  ⟨by decide +kernel, by decide +kernel, by decide +kernel, by decide +kernel⟩

/-- The OPEN part with its framer in a state. -/
def framed (f : Framer) : State := { opened with link := { opened.link with framer := f } }

theorem test_witness_ReceiverFollowsTheFramer :
    ((framed .hunt).link.framer = .hunt ∧ (0x59 : Byte) ≠ 0x5A) ∧
      ((framed (.length ⟨5, 0⟩)).link.framer = .length ⟨5, 0⟩ ∧ 3 ≤ (3 : Byte).toNat ∧ (200 : Byte).toNat ≤ 200 ∧
        (2 : Byte).toNat < 3 ∧ 200 < (201 : Byte).toNat) ∧
      ((framed (.body 3 [1, 7, 3] ⟨5, 1⟩)).link.framer = .body 3 [1, 7, 3] ⟨5, 1⟩ ∧ 3 + 1 < (3 : Byte).toNat + 2) ∧
      (framed (.body 3 ([1, 7, 3] ++ [9]) ⟨5, 1⟩)).link.framer = .body 3 ([1, 7, 3] ++ [9]) ⟨5, 1⟩ ∧
      ((framed (.length ⟨5, 0⟩)).link.framer ≠ .hunt ∧ (framed (.length ⟨5, 0⟩)).link.framer.gap = some ⟨5, 0⟩ ∧
        (framed (.length ⟨5, 0⟩)).mayRun ((⟨5, 0⟩ : Timer).wait 999) = true) ∧
      (framed .hunt).link.resetnLow = false ∧ heldLow.link.resetnLow = true := by
  decide +kernel

/-- A received frame of a body with its right CRC. -/
def received (body : List Byte) : RxFrame :=
  ⟨BitVec.ofNat 8 body.length, body, crcHigh (crc16 (BitVec.ofNat 8 body.length :: body)),
    crcLow (crc16 (BitVec.ofNat 8 body.length :: body))⟩

/-- The OPEN part with n requests in its intake and one frame to check. -/
def checking (n : Nat) (f : RxFrame) : State :=
  { opened with link := { opened.link with completed := [f], intake := List.replicate n (req .ping []) } }

theorem test_witness_FramesAreCheckedByTheirCrc :
    (∀ k ∈ [(1 : Byte), 2, 3], crc16 ((received [k, 7, 3]).len :: (received [k, 7, 3]).body) =
      (received [k, 7, 3]).crcHigh.setWidth 16 <<< 8 ||| (received [k, 7, 3]).crcLow.setWidth 16) ∧
    (checking 3 (received [1, 7, 3])).link.completed = received [1, 7, 3] :: [] ∧
    (checking 3 (received [2, 7, 3])).link.intake.length < 4 ∧ 4 ≤ (checking 4 (received [1, 7, 3])).link.intake.length ∧
    crc16 [3, 1, 7, 3] ≠ (0 : Byte).setWidth 16 <<< 8 ||| (0 : Byte).setWidth 16 := by decide +kernel

/-- The fields of a SHIFT at the ends of what they can carry. -/
def wide : List Field := [(.shift, -2147483648), (.axis, 255), (.shiftMode, 0)]

theorem test_witness_FieldAreaReadsBackWhatItEncodes :
    (∀ e ∈ wide, ReqCode.shift.hasField e.1 = true) ∧
    (∀ e ∈ wide, e.1.signed = true → -(2 ^ (8 * e.1.size - 1) : Int) ≤ e.2 ∧ e.2 < (2 ^ (8 * e.1.size - 1) : Int)) ∧
    (∀ e ∈ wide, e.1.signed = false → 0 ≤ e.2 ∧ e.2 < (2 ^ (8 * e.1.size) : Int)) ∧
    ((wide.filter (fun e => !e.1.isList)).map (·.1)).Nodup ∧
    ReqCode.shift.read (wide.flatMap encodeField) = .good wide := by decide +kernel

/-- A request with raw bytes for its field area. -/
def raw (s : State) (c : Byte) (area : List Byte) : State :=
  { s with link := { s.link with intake := [⟨false, 7, c, area⟩] } }

/-- What a witness needs of a request whose fields are in order. -/
abbrev Reads (c : ReqCode) (fs : List Field) : Prop :=
  (ask opened c fs).dueRequest (some c) = some (req c fs) ∧ c.read (req c fs).area = .good fs

theorem test_witness_FormatErrorsAreAnswered :
    ((raw opened 25 [1, 2, 0, 0]).dueRequest (some .teach) = some ⟨false, 7, 25, [1, 2, 0, 0]⟩ ∧
      ReqCode.teach.read [1, 2, 0, 0] = .bad 1) ∧
    ((raw opened 25 [1, 1, 0]).dueRequest (some .teach) = some ⟨false, 7, 25, [1, 1, 0]⟩ ∧
      ReqCode.teach.read [1, 1, 0] = .good [(.axis, 0)] ∧ FieldId.datum ∈ ReqCode.teach.required ∧
      carries [(.axis, 0)] .datum = false ∧
      ∀ g ∈ ReqCode.teach.requiredNow [(.axis, 0)], carries [(.axis, 0)] g = false → FieldId.datum.code ≤ g.code) ∧
    (raw opened 7 []).dueRequest none = some ⟨false, 7, 7, []⟩ := by decide +kernel

/-- What is out of order in a field area: an id of another request, no length, a wrong length, a value cut off, a second
AXIS; the first of two is named. -/
theorem test_first_bad_field :
    ReqCode.teach.read [1, 1, 0, 0, 1] = .bad 0 ∧ ReqCode.teach.read [1, 1, 0, 67] = .bad 67 ∧
      ReqCode.teach.read [1, 2, 0, 0] = .bad 1 ∧ ReqCode.teach.read [1, 1, 0, 67, 4, 0, 0, 0] = .bad 67 ∧
      ReqCode.teach.read [1, 1, 0, 1, 1, 0, 255] = .bad 1 := by decide +kernel

/-- The fields of a HOME by a switch method without SEEK-DIR. -/
def unsought (m : Int) : List Field := [(.axis, 0), (.method, m), (.qualifyDir, 1), (.datum, 0), (.timeLimit, 1)]

theorem test_witness_FormatErrorsAreAnswered_home :
    ∀ m ∈ [(0 : Int), 1], Reads .home (unsought m) ∧ fieldValue (unsought m) .method = some m ∧
      carries (unsought m) .seekDir = false ∧ ∀ f ∈ ReqCode.home.required, carries (unsought m) f = true := by
  decide +kernel

/-- The required fields of an ENQUEUE, with others behind them. -/
def bareOrder (fs : List Field) : List Field := [(.axis, 0), (.orderTag, 1)] ++ fs

theorem test_witness_FormatErrorsAreAnswered_presence :
    (∀ fs ∈ [[(.station, 1), (.target, 5)], [], [((.target : FieldId), (5 : Int))]], Reads .enqueue (bareOrder fs) ∧
      ∀ f ∈ ReqCode.enqueue.required, carries (bareOrder fs) f = true) ∧
    (∀ fs ∈ [[(.axis, 0), (.orderTag, 1), (.all, 1)], [((.axis : FieldId), (0 : Int))]], Reads .cancel fs ∧
      ∀ f ∈ ReqCode.cancel.required, carries fs f = true) := by decide +kernel

theorem test_witness_SessionAndValueErrorsAreAnswered :
    ((ask State.reset .getAxis [(.axis, 0)]).dueRequest (some .getAxis) = some (req .getAxis [(.axis, 0)]) ∧
      ReqCode.getAxis.read (req .getAxis [(.axis, 0)]).area = .good [(.axis, 0)] ∧
      (∀ f ∈ ReqCode.getAxis.requiredNow [(.axis, 0)], carries [(.axis, 0)] f = true) ∧
      ReqCode.getAxis.presence [(.axis, 0)] = none ∧ State.reset.link.session = .closed) ∧
    ((ask opened .getAxis [(.axis, 4)]).dueRequest (some .getAxis) = some (req .getAxis [(.axis, 4)]) ∧
      ReqCode.getAxis.read (req .getAxis [(.axis, 4)]).area = .good ([] ++ [(.axis, 4)]) ∧
      (∀ f ∈ ReqCode.getAxis.requiredNow [(.axis, 4)], carries [(.axis, 4)] f = true) ∧
      ReqCode.getAxis.presence [(.axis, 4)] = none ∧ FieldId.axis.inRange .getAxis 3 = true ∧
      FieldId.axis.inRange .getAxis 4 = false) ∧
    ((ask State.reset .openSession [(.keepalive, 99)]).dueRequest (some .openSession) =
        some (req .openSession [(.keepalive, 99)]) ∧
      ReqCode.openSession.read (req .openSession [(.keepalive, 99)]).area = .good ([] ++ [(.keepalive, 99)]) ∧
      (∀ f ∈ ReqCode.openSession.requiredNow [(.keepalive, 99)], carries [(.keepalive, 99)] f = true) ∧
      ReqCode.openSession.presence [(.keepalive, 99)] = none ∧ FieldId.keepalive.inRange .openSession 99 = false) ∧
    (∀ v ∈ [(0 : Int), 100, 60000], FieldId.keepalive.inRange .openSession v = true) ∧
    (FieldId.timeLimit.inRange .home 0 = false ∧ FieldId.timeLimit.inRange .putProfile 0 = true ∧
      FieldId.position.inRange .putStation (-67108863) = true ∧
      FieldId.position.inRange .putStation (-67108864) = false) := by decide +kernel

/-- A reply with a tag. -/
def reply (n : Nat) : Reply := ⟨BitVec.ofNat 8 n, ⟨.ok, [], [], []⟩⟩

theorem test_witness_ReplyCacheAnswersRetries :
    (((List.range 8).map reply).length ≤ 8 ∧ (((List.range 8).map reply).map (·.tag)).Nodup) ∧
    ((reply 7) ∈ [reply 6, reply 7] ∧ (reply 7).tag = (7 : Byte) ∧ ([reply 6, reply 7].map (·.tag)).Nodup ∧
      (List.replicate 3 (reply 0)).length < 4) := by decide +kernel

/-- The OPEN part with a PING sent again in its intake, and its cache. -/
def retrying (cache : List Reply) : State :=
  { opened with link := { opened.link with intake := [⟨true, 7, 3, []⟩], cache := cache } }

theorem test_witness_ReplyCacheAnswersRetries_due :
    (retrying [reply 6]).dueRequest (some .ping) = some ⟨true, 7, 3, []⟩ ∧
      (retrying [reply 6, reply 7]).dueRequest (some .ping) = none ∧
      (retrying [reply 6]).dueRequest (some .hold) = none := by decide +kernel

/-- The OPEN part with some replies waiting and some notices held. -/
def sending (rs : List Reply) (ns : List Notice) (p : RestartPhase) : State :=
  { opened with notices := ⟨ns, 40⟩, link := { opened.link with replies := rs, restart := p } }

theorem test_witness_FramesBegin :
    ((sending [reply 1] [] .replyWaiting).link.transmitter = none ∧
      (sending [reply 1] [] .replyWaiting).link.replies = reply 1 :: []) ∧
    ((sending [] ([notice 1 true] ++ notice 2 false :: [notice 3 false]) .none).link.replies = [] ∧
      (∀ e ∈ [notice 1 true], e.sent = true) ∧ (notice 2 false).sent = false ∧
      (sending [] ([notice 1 true] ++ notice 2 false :: [notice 3 false]) .none).notices.sentCount < 8) := by
  decide +kernel

theorem test_witness_FrameEndFreesOrRestarts :
    restarting.link.transmitter = some ⟨[0x5A], ⟨4, 0⟩⟩ ∧ restarting.mayRun ((⟨4, 0⟩ : Timer).wait 999) = true ∧
      restarting.link.restart = .replySending ∧
      { restarting with link := { restarting.link with restart := .none } }.link.restart ≠ .replySending ∧
      ((restarting.axis .axis0).lines = .off ∧ restarting.link.resetnLow = false) ∧
      ((restarting.setAxis .axis0 moving).axis .axis0).lines = .run .positive false := by
  decide +kernel

theorem test_witness_OpenAndCloseChangeTheSession :
    Serves (ask State.reset .openSession [(.keepalive, 60000)]) .openSession (req .openSession [(.keepalive, 60000)])
        [(.keepalive, 60000)] ∧
      Serves (ask opened .openSession [(.keepalive, 0)]) .openSession (req .openSession [(.keepalive, 0)])
        [(.keepalive, 0)] ∧
      (∀ x, Serves (asks x .closeSession []) .closeSession (req .closeSession []) []) ∧
      (∃ a, ((asks moving .closeSession []).axis a).motion.inMotion = true) ∧
      (∀ a, ((asks { driven with queue := [order 1] } .closeSession []).axis a).motion.inMotion = false) ∧
      ((asks { driven with queue := [order 1] } .closeSession []).axis .axis0).queue ≠ [] :=
  ⟨⟨by decide +kernel, by decide +kernel⟩, ⟨by decide +kernel, by decide +kernel⟩, fun _ => ⟨rfl, rfl⟩, ⟨.axis0, rfl⟩,
    fun a => by cases a <;> rfl, by decide⟩

theorem test_witness_LinkPortAnswersItsOwnRequests :
    (∀ c ∈ [ReqCode.ping, .identify, .restart], (ask opened c []).dueRequest (some c) = some (req c []) ∧
      c.check .opened (req c []).area = .passed []) ∧
    (∀ v ∈ [(0 : Int), 1], (ask opened .linkStatus [(.clear, v)]).dueRequest (some .linkStatus) =
        some (req .linkStatus [(.clear, v)]) ∧
      ReqCode.linkStatus.check .opened (req .linkStatus [(.clear, v)]).area = .passed [(.clear, v)]) := by
  decide +kernel

theorem test_witness_KeepaliveExpiryIsLinkLoss :
    let s : State := { restartWaits with link := { restartWaits.link with restart := .none } }
    s.link.keepalive = some ⟨100, 0⟩ ∧ s.link.session = .opened ∧ s.link.restart ≠ .replyWaiting ∧
      ((s.setAxis .axis0 moving).axis .axis0).motion.inMotion = true ∧
      ((s.setAxis .axis1 { driven with queue := [order 1] }).axis .axis1).queue ≠ [] ∧
      (s.setAxis .axis0 moving).mayRun ((⟨100, 0⟩ : Timer).wait 999) = true ∧
      (restartWaits.link.restart = .replyWaiting ∧ restartWaits.link.keepalive = some ⟨100, 0⟩ ∧
        restartWaits.link.session = .opened ∧ restartWaits.link.resetnLow = false ∧
        (restartWaits.setAxis .axis0 moving).mayRun ((⟨100, 0⟩ : Timer).wait 0) = true ∧
        (restartWaits.axis .axis1).lines = .off ∧
        ((restartWaits.setAxis .axis0 moving).axis .axis0).motion.inMotion = true) := by decide +kernel

/-- A request about axis 0 is served whatever that axis holds. -/
theorem serves_asks {c : ReqCode} {fs : List Field}
    (h : (ask opened c fs).dueRequest (some c) = some (req c fs) ∧
      c.check .opened (req c fs).area = .passed fs ∧ fieldAxis fs = .axis0) :
    ∀ x, Serves (asks x c fs) c (req c fs) fs ∧ fieldAxis fs = .axis0 ∧ (asks x c fs).axis .axis0 = x :=
  fun _ => ⟨⟨h.1, h.2.1⟩, h.2.2, rfl⟩

/-- A request is served in any state of the OPEN part but for the Link Port. -/
theorem serves_ask {c : ReqCode} {fs : List Field}
    (h : (ask opened c fs).dueRequest (some c) = some (req c fs) ∧ c.check .opened (req c fs).area = .passed fs)
    (s : State) (hs : s.link = opened.link) : Serves (ask s c fs) c (req c fs) fs := by
  unfold Serves ask
  rw [hs]
  exact ⟨h.1, h.2⟩

/-- What a witness needs of a request. -/
abbrev Fits (c : ReqCode) (fs : List Field) : Prop :=
  (ask opened c fs).dueRequest (some c) = some (req c fs) ∧ c.check .opened (req c fs).area = .passed fs

/-- The same of a request about axis 0. -/
abbrev FitsAxis (c : ReqCode) (fs : List Field) : Prop :=
  (ask opened c fs).dueRequest (some c) = some (req c fs) ∧ c.check .opened (req c fs).area = .passed fs ∧
    fieldAxis fs = .axis0

/-- The idle axis under a lockout, with the line-fault condition present and the line check off. -/
def crossed : Axis :=
  { driven with
    lockout := some ⟨.negative, 7, some ⟨200, 199000⟩, 0⟩
    counting := { driven.counting with lineFault := true } }

theorem test_witness_SetAxisStoresItsFields :
    FitsAxis .setAxis [(.axis, 0), (.modulus, 16), (.lineCheck, 1), (.reversalGap, 5000), (.indexTol, 255)] ∧
      (FitsAxis .setAxis [(.axis, 0), (.reversalGap, 20)] ∧ FitsAxis .setAxis [(.axis, 0), (.countSense, 1)] ∧
        FitsAxis .setAxis [(.axis, 0), (.lineCheck, 1)]) ∧
      (moving.motion ≠ .idle ∧ moving.motion ≠ .held ∨ moving.queue ≠ []) ∧
      ((inState .held .off).motion = .held ∧ (inState .held .off).queue = []) ∧
      (driven.config.indexTol ≠ 255 ∧ CountSense.ofCode 1 ≠ driven.config.countSense) ∧
      (crossed.motion = .idle ∧ crossed.queue = [] ∧ crossed.config.lineCheck = false ∧
        crossed.counting.lineFault = true ∧ crossed.counting.lineRaised = false ∧
        { crossed with counting := { crossed.counting with lineRaised := true } }.counting.lineRaised ≠ false) := by
  decide +kernel

/-- The axis 3000.5 ms behind its turn-off, under a gap of 5000 ms. -/
def longOff : Axis := { crossed with lockout := some ⟨.negative, 7, some ⟨5000, 3000500⟩, 0⟩ }

/-- A changed gap moves the end of a lockout in force; one that has passed ends within the next millisecond, and a third gap
before that is measured from the turn-off again: 3000.7 ms after it 2000 ms of 5000 are left, as without the second
(R112). -/
theorem test_gap_change :
    (crossed.changeGap 5000).lockout = some ⟨.negative, 7, some ⟨5000, 199000⟩, 0⟩ ∧
      (crossed.changeGap 20).lockout = some ⟨.negative, 7, some ⟨20, 20000⟩, 179000⟩ ∧
      (((longOff.changeGap 20).advance 200).changeGap 5000).lockout = some ⟨.negative, 7, some ⟨5000, 3000700⟩, 0⟩ ∧
      longOff.endLockout.lockout = some ⟨.negative, 7, none, 0⟩ := by decide +kernel

theorem test_witness_SetAxisStoresItsFields_monitor (fs : List Field) :
    (under crossed .occupied .setAxis fs).MonitorOk ∧ (under driven .occupied .setAxis fs).MonitorOk :=
  ⟨monitorOk_under (by decide +kernel) (by decide +kernel), monitorOk_under (by decide +kernel) (by decide +kernel)⟩

theorem test_witness_GetAxisReportsTheConfiguration : FitsAxis .getAxis [(.axis, 0)] := by decide +kernel

/-- The axis FAULTED by STALL. -/
def stalled : Axis := { inState .faulted .off with counting := { driven.counting with fault := some ⟨.stall, 5, 9, [.line]⟩ } }

/-- The same with the line-fault condition present under LINE-CHECK. -/
def miswired : Axis :=
  { stalled with config := { stalled.config with lineCheck := true }, counting := { stalled.counting with lineFault := true } }

theorem test_witness_AxisStatusReportsTheAxis :
    FitsAxis .axisStatus [(.axis, 0)] ∧ stalled.motion = .faulted ∧ stalled.counting.fault = some ⟨.stall, 5, 9, [.line]⟩ := by
  decide +kernel

theorem test_witness_ClearFaultReturnsTheAxisToHeld :
    FitsAxis .clearFault [(.axis, 0)] ∧ moving.motion ≠ .faulted ∧ stalled.motion = .faulted ∧
      stalled.counting.lineFault = false ∧ miswired.counting.lineFault = true ∧ miswired.config.lineCheck = true := by
  decide +kernel

theorem test_witness_FaultsEndOperations :
    (driven.counting.fault = none ∧ stalled.counting.fault = some ⟨.stall, 5, 9, [.line]⟩ ∧
      FaultKind.line ∈ [FaultKind.line] ∧ FaultKind.slip ≠ .stall ∧ FaultKind.slip ∉ [FaultKind.line]) ∧
    ({ moving with faultClaims := [.slip] }.faultClaims = .slip :: [] ∧
      moving.motion = .moving (active (.slow .normal) 200) ∧
      (inState (run .switchEdge .seek) .off).motion = run .switchEdge .seek ∧
      (inState (jogging true) .off).motion = jogging true ∧ driven.motion.inMotion = false ∧
      FaultKind.slip ≠ .stall ∧ driven.counting.reference = .referenced ∧ bare.counting.reference ≠ .referenced) ∧
    ({ moving with stall := some ⟨50, 49000⟩ }.stall = some ⟨50, 49000⟩ ∧
      (((opened.setAxis .axis0 { moving with stall := some ⟨50, 49000⟩ }).runTo ⟨50, 49000⟩ 0).axis .axis0).motion =
        .moving { active (.slow .normal) 200 with moveLimit := some ⟨30000, 1000⟩ } ∧
      (timed 49000).mayRun ((⟨50, 49000⟩ : Timer).wait 999) = true ∧
      (((opened.setAxis .axis0 { driven with stall := some ⟨50, 49000⟩ }).runTo ⟨50, 49000⟩ 0).axis
        .axis0).motion.inMotion = false ∧
      (((opened.setAxis .axis0 { inState (run .switchEdge .seek) .off with stall := some ⟨50, 49000⟩ }).runTo ⟨50, 49000⟩
        0).axis .axis0).motion.isHoming = true ∧
      (((opened.setAxis .axis0 { inState (jogging false) (.run .positive false) with stall := some ⟨50, 49000⟩ }).runTo
        ⟨50, 49000⟩ 0).axis .axis0).motion = .jogging ⟨.positive, .creep, ⟨500, 1000⟩, false⟩) := by decide +kernel

theorem test_witness_FaultsEndOperations_monitor :
    (under { moving with faultClaims := [.slip] } .occupied .ping []).MonitorOk :=
  monitorOk_under (by decide +kernel) (by decide +kernel)

theorem test_witness_EdgesCountOnUnreferencedAxes :
    bare.counting.reference = .unreferenced ∧ (driven.pins.encoder.a ≠ true ↔ driven.pins.encoder.b ≠ true) ∧
      driven.counting.reference = .referenced ∧ (bare.pins.encoder.a ≠ true ↔ ¬ bare.pins.encoder.b ≠ false) ∧
      (bare.pins.encoder.a ≠ true ↔ bare.pins.encoder.b ≠ true) := by decide +kernel

/-- A count event on a moving axis in COAST starts the stall timer and the rest timer again. -/
theorem test_counted_coast :
    let y : Axis := { inState (.moving (active (.coast ⟨100, 99000⟩) 6)) .off with stall := some ⟨50, 49000⟩ }
    (y.counted ⟨true, false⟩ .positive).motion = .moving (active (.coast ⟨100, 0⟩) 6) ∧
      (y.counted ⟨true, false⟩ .positive).stall = some ⟨50, 0⟩ := by decide +kernel

/-- The axis at an end of the linear position range. -/
def atEnd : Axis := { driven with counting := { driven.counting with base := 67108863 } }

/-- The ROTARY axis with a raw count. -/
def turned (n : Count) : Axis := { rotary with counting := { rotary.counting with raw := n } }

theorem test_witness_EdgesOfReferencedAxesMoveThePosition :
    (leadsOf driven.pins.encoder ⟨true, false⟩ = some true ∧ driven.counting.reference = .referenced ∧
      moving.counting.reference = .referenced ∧ -67108863 ≤ (driven.counted ⟨true, false⟩ .positive).formed ∧
      (driven.counted ⟨true, false⟩ .positive).formed ≤ 67108863 ∧ driven.motion = .idle ∧
      moving.motion = .moving (active (.slow .normal) 200)) ∧
    (Block.before (.axisController .axis0) .windowMonitor [] = true ∧
      Block.before (.axisController .axis0) .windowMonitor [.windowMonitor, .axisController .axis0] = false) ∧
    (atEnd.config.kind = .linear ∧ -67108863 ≤ atEnd.formed ∧ atEnd.formed ≤ 67108863 ∧
      -16777215 ≤ atEnd.counting.shift ∧ atEnd.counting.shift ≤ 16777215) ∧
    (rotary.config.kind = .rotary ∧ 0 < rotary.config.modulus ∧
      ((turned 0x7FFFFFFE).counting.raw + (turned 0x7FFFFFFE).counting.base).toInt + Dir.positive.sign = 2147483647 ∧
      ((turned 0x80000001).counting.raw + (turned 0x80000001).counting.base).toInt + Dir.negative.sign =
        -2147483648) ∧
    67108863 < (atEnd.counted ⟨true, false⟩ .positive).formed := by decide +kernel

theorem test_witness_EdgesOfReferencedAxesMoveThePosition_monitor : (under atEnd .vacant .ping []).MonitorOk :=
  monitorOk_under (by decide +kernel) (by decide +kernel)

/-- The axis with the index check on and a baseline d counts back. -/
def checked (d : Count) : Axis :=
  { driven with
    config := { driven.config with indexSpacing := 100, indexTol := 2 }
    counting := { driven.counting with raw := d, baseline := some 0 } }

theorem test_witness_IndexAndLineChecksRaiseFaults :
    (driven.motion.isHoming = false ∧ driven.config.indexSpacing = 0 ∧ (checked 102).config.indexSpacing ≠ 0 ∧
      (checked 102).counting.reference = .referenced ∧ (checked 102).counting.baseline = some 0 ∧
      (-2 ≤ ((102 : Count) - 0).toInt - 100 ∧ ((102 : Count) - 0).toInt - 100 ≤ 2) ∧
      ¬ (((103 : Count) - 0).toInt - 100 ≤ 2) ∧ ¬ (((103 : Count) - 0).toInt + 100 ≤ 2) ∧
      ¬ (((103 : Count) - 0).toInt ≤ 2) ∧
      { checked 0 with counting := { (checked 0).counting with baseline := none } }.counting.baseline = none) ∧
    (driven.pins.mismatch = ⟨false, false, false⟩ ∧ (⟨true, false, false⟩ : PairMismatch) ≠ ⟨false, false, false⟩ ∧
      { driven with counting := { driven.counting with lineTimer := some ⟨1, 0⟩ } }.counting.lineTimer = some ⟨1, 0⟩ ∧
      (timed 0).mayRun ((⟨1, 0⟩ : Timer).wait 999) = true ∧
      { driven with pins := { driven.pins with mismatch := ⟨true, true, false⟩ } }.pins.mismatch ≠ ⟨false, false, false⟩ ∧
      driven.config.lineCheck = false ∧ miswired.config.lineCheck = true) := by decide +kernel

theorem test_witness_IndexAndLineChecksRaiseFaults_monitor :
    (under (checked 103) .vacant .ping []).MonitorOk ∧
      (under { driven with config := { driven.config with lineCheck := true } } .occupied .ping []).MonitorOk :=
  ⟨monitorOk_under (by decide +kernel) (by decide +kernel), monitorOk_under (by decide +kernel) (by decide +kernel)⟩

theorem test_witness_IndexAndLineChecksRaiseFaults_edge :
    ∃ u, exec (.countEdge .axis0 ⟨true, false⟩ []) (opened.setAxis .axis0 (checked 101)) = .next u ∧
      (u.axis .axis0).motion.isHoming = false ∧ (u.axis .axis0).counting.raw = 102 :=
  ⟨_, rfl, by decide +kernel, by decide +kernel⟩

/-- The fields of a HOME by switch edge. -/
def homeFields : List Field :=
  [(.axis, 0), (.method, 1), (.seekDir, 2), (.qualifyDir, 1), (.datum, 67108863), (.timeLimit, 600)]

theorem test_witness_HomeStartsARun :
    (FitsAxis .home homeFields ∧ FitsAxis .home [(.axis, 0), (.method, 2), (.qualifyDir, 2), (.datum, 0), (.timeLimit, 1)]) ∧
      driven.config.kind = .linear ∧ fieldInt homeFields .datum + driven.counting.shift ≤ 67108863 ∧
      ¬ fieldInt homeFields .datum + { driven with counting := { driven.counting with shift := 1 } }.counting.shift ≤ 67108863 ∧
      stalled.motion = .faulted ∧ moving.motion.inMotion = true ∧ driven.motion = .idle ∧
      (watching opened [] [(1, ⟨[1, 2], [.axis0], .tripped⟩)]).monitor.guarded .axis0 = true ∧
      opened.monitor.guarded .axis0 = false ∧ driven.lines = .off ∧ driven.permits .negative = true ∧
      { driven with lockout := some ⟨.positive, 0, some ⟨200, 199000⟩, 0⟩ }.permits .negative = false ∧
      bare.config.role = .watched := by decide +kernel

theorem test_witness_HomeStartsARun_invariants :
    ((under driven .occupied .home homeFields).MonitorOk ∧ driven.LinesOk) ∧
      (under bare .unknown .home homeFields).MonitorOk ∧ bare.LinesOk :=
  ⟨⟨monitorOk_under (by decide +kernel) (by decide +kernel),
      { fit := rfl, permitted := nofun, stall := fun _ => rfl, watched := nofun }⟩,
    monitorOk_under (by decide +kernel) (by decide +kernel),
    { fit := rfl, permitted := nofun, stall := fun _ => rfl, watched := fun _ => ⟨rfl, rfl, trivial⟩ }⟩

/-- An edge of SENSE that meets the acceptance of a HOME is taken as the present state (R151). -/
theorem test_home_with_edge :
    let x : Axis := { driven with pins := { driven.pins with sense := true }, log := ⟨.both, [], 1⟩ }
    ∃ t, exec (.senseEdge .axis0 false [.linkPort]) (asks x .home homeFields) = .next t ∧
      (t.axis .axis0).motion =
        .homing ⟨.switchEdge, some .negative, .positive, 67108863, false, .onSwitch, ⟨600000, 0⟩⟩ ∧
      (t.axis .axis0).pins.sense = false ∧ (t.axis .axis0).lines = .run .positive false ∧
      (t.axis .axis0).log.ring = [] :=
  ⟨_, rfl, by decide +kernel⟩

/-- The same edge with no HOME waiting, or with the Capture Log named first, is recorded. -/
theorem test_witness_HomeStartsARun_edge :
    let x : Axis := { driven with pins := { driven.pins with sense := true }, log := ⟨.both, [], 1⟩ }
    (Block.before .linkPort .captureLog [.linkPort] = true ∧ Block.before .linkPort .captureLog [] = false ∧
      Block.before .linkPort .captureLog [.captureLog, .linkPort] = false) ∧
    (∃ t, exec (.senseEdge .axis0 false [.linkPort]) (asks x .ping []) = .next t ∧
      (t.axis .axis0).log.ring.length = 1 ∧ (t.axis .axis0).motion = .idle) ∧
    ∃ t, exec (.senseEdge .axis0 false [.captureLog, .linkPort]) (asks x .home homeFields) = .next t ∧
      (t.axis .axis0).log.ring.length = 1 ∧ (t.axis .axis0).motion = .idle :=
  ⟨by decide +kernel, ⟨_, rfl, by decide +kernel⟩, ⟨_, rfl, by decide +kernel⟩⟩

/-- An axis in a homing run with SENSE active or not, last moved in the qualify direction. -/
def homing (m : Method) (sub : HomingSubstate) (active : Bool) (ref : Reference) : Axis :=
  { inState (run m sub) .off with
    pins := { driven.pins with sense := !active }
    counting := { driven.counting with lastDir := some .positive, reference := ref } }

theorem test_witness_HomingRunsFollowTheirTable :
    (homing .switchEdge .seek false .unreferenced).senseActive = false ∧
      (homing .switchEdge .onSwitch true .unreferenced).senseActive = true ∧
      (homing .switchEdge .onSwitch true .unreferenced).counting.lastDir = some .positive ∧
      { homing .switchIndex .onSwitch true .unreferenced with
        counting := { driven.counting with lastDir := none } }.counting.lastDir ≠ some .positive ∧
      (homing .switchIndex .awaitIndex false .unreferenced).motion = run .switchIndex .awaitIndex ∧
      (homing .indexOnly .awaitIndex false .unreferenced).counting.reference = .unreferenced ∧
      (∀ sub ∈ [HomingSubstate.seek, .onSwitch, .awaitIndex], ∀ m ∈ [Method.switchIndex, .indexOnly],
        (homing m sub false .unreferenced).senseActive = false ∧ (homing m sub true .unreferenced).senseActive = true) ∧
      (opened.setAxis .axis0 (homing .switchEdge .seek false .unreferenced)).mayRun
        ((⟨60000, 0⟩ : Timer).wait 999) = true := by decide +kernel

theorem test_witness_HomingRunsFollowTheirTable_lines :
    (inState (run .switchEdge .seek) (.run .negative true)).lines = .run .negative true ∧
      (inState (run .switchEdge .seek) (.run .positive false)).lines = .run Dir.negative.opposite false ∧
      (driven.lines = .off ∧ driven.permits .negative = true) ∧
      { driven with lockout := some ⟨.positive, 0, some ⟨200, 199000⟩, 0⟩ }.permits .negative = false ∧
      bare.config.role = .watched := by decide +kernel

/-- The SENSE edge that ends a SWITCH-EDGE run is captured only behind the end of the run (R151). -/
theorem test_switchEdge_end (order : List Block) (h : order = [] ∨ order = [.captureLog]) :
    ∃ t, exec (.senseEdge .axis0 true order)
        (opened.setAxis .axis0
          { homing .switchEdge .onSwitch true .unreferenced with log := ⟨.fall, [], 1⟩ }) = .next t ∧
      (t.axis .axis0).motion = .idle ∧ (t.axis .axis0).counting.reference = .referenced ∧
      (t.axis .axis0).log.ring.length = if order = [] then 1 else 0 := by
  rcases h with rfl | rfl
  · exact ⟨_, rfl, by decide +kernel⟩
  · exact ⟨_, rfl, by decide +kernel⟩

/-- With the start named before the Window Monitor, the head order starts ahead of the guard's trip (R31, R135). -/
theorem test_start_ahead_of_the_guard :
    ∃ t, exec (.indexMark .axis0 none [.axisController .axis0, .orderStart .axis0, .windowMonitor])
        (watching ((opened.setAxis .axis0
            { homing .indexOnly .awaitIndex false .unreferenced with
              queue := [order 1]
              pins := { driven.pins with sense := true } }).withPending []
          |> fun s => { s with tables := ⟨[], [(0, profile)]⟩ })
          [(1, window .unknown), (2, window .unknown)] [(1, ⟨[1, 2], [.axis0], .clear⟩)]) = .next t ∧
      (t.axis .axis0).motion.active.isSome = true ∧ (t.axis .axis0).claims.head? = some .stop :=
  ⟨_, rfl, by decide +kernel⟩

theorem test_witness_TeachAndShiftSetThePosition :
    (FitsAxis .teach [(.axis, 0), (.datum, -67108863)] ∧ driven.config.kind = .linear ∧
      -67108863 ≤ -67108863 + driven.counting.shift ∧
      ¬ -67108863 ≤ -67108863 + { driven with counting := { driven.counting with shift := -1 } }.counting.shift ∧
      stalled.motion = .faulted ∧ moving.motion.inMotion = true ∧ driven.motion = .idle ∧
      FitsAxis .teach [(.axis, 0), (.datum, 15)] ∧ (15 : Int) ≤ rotary.config.modulus - 1) ∧
    (FitsAxis .shift [(.axis, 0), (.shift, 16777215), (.shiftMode, 1)] ∧
      (16777215 : Int) = driven.counting.shift + 16777215 ∧
      (FitsAxis .shift [(.axis, 0), (.shift, 0), (.shiftMode, 1)] ∧ driven.counting.shift + 0 = driven.counting.shift) ∧
      FitsAxis .shift [(.axis, 0), (.shift, -16777215), (.shiftMode, 0)] ∧
      ¬ (-67108863 : Int) ≤ -67108863 + (-1 - 0) ∧
      ¬ { driven with counting := { driven.counting with shift := 1 } }.counting.shift + 16777215 ≤ 16777215 ∧
      driven.position = some 0 ∧ rotary.position = some 0 ∧ bare.counting.reference = .unreferenced ∧
      driven.motion.inMotion = false) := by decide +kernel

/-- The OPEN part with n stations of axis 0 and the profile 0. -/
def tabled (n : Nat) : State :=
  { opened with tables := ⟨(List.range n).map (fun k => (k + 1, ⟨5, 0, none⟩)), [(0, profile)]⟩ }

theorem test_witness_StationsAreWrittenAndDropped :
    FitsAxis .putStation [(.axis, 0), (.station, 999), (.position, 5), (.profile, 0), (.settle, 30000)] ∧
      FitsAxis .dropStation [(.axis, 0), (.station, 1)] ∧ Table.find 0 opened.tables.profiles = none ∧
      Table.find 0 (tabled 384).tables.profiles ≠ none ∧ 384 ≤ (tabled 384).tables.stations.length ∧
      Table.find 999 (tabled 384).tables.stations = none ∧ (tabled 383).tables.stations.length < 384 ∧
      Table.find 1 (tabled 384).tables.stations ≠ none := by decide +kernel

theorem test_witness_GetStationAndGetProfileReport :
    (FitsAxis .getStation [(.axis, 0), (.station, 1)] ∧ Table.find (stationKey .axis0 1) opened.tables.stations = none ∧
      Table.find (stationKey .axis0 1) (tabled 1).tables.stations = some ⟨5, 0, none⟩ ∧
      Table.find (stationKey .axis0 1) [(1, (⟨5, 0, some 0⟩ : Station))] = some ⟨5, 0, some 0⟩) ∧
    (Fits .getProfile [(.profile, 15)] ∧ Fits .getProfile [(.profile, 0)] ∧
      Table.find 15 (tabled 1).tables.profiles = none ∧ Table.find 0 (tabled 1).tables.profiles = some profile) := by
  decide +kernel

theorem test_witness_ListRepliesArePaged :
    FitsAxis .listStations [(.axis, 0), (.first, 999)] ∧ FitsAxis .listStations [(.axis, 0)] ∧
      (FitsAxis .listOrders [(.axis, 0), (.skip, 7)] ∧ FitsAxis .listOrders [(.axis, 0), (.skip, 0)]) ∧
      (tabled 384).tables.stations.length = 384 := by decide +kernel

/-- A page limit: an axis with a running order and seven behind it answers with some of them and MORE, and twelve stations
with SETTLE answer with eleven and NEXT (R197). -/
theorem test_pages_stop_at_the_body_limit :
    (∃ t p, exec .listOrders (asks { moving with queue := (List.range 7).map (fun k => order (k + 2)) } .listOrders
        [(.axis, 0), (.skip, 0)]) = .next t ∧ t.link.replies = [p] ∧ p.answer.groups.length = 6 ∧
      p.answer.trailing = [(.more, 2)]) ∧
    (∃ t p, exec .listStations (ask
        { opened with tables := ⟨(List.range 12).map (fun k => (k + 1, ⟨5, 0, some 9⟩)), [(0, profile)]⟩ } .listStations
        [(.axis, 0)]) = .next t ∧ t.link.replies = [p] ∧ p.answer.groups.length = 11 ∧
      p.answer.trailing = [(.next, 12)]) :=
  ⟨⟨_, _, rfl, rfl, by decide +kernel⟩, ⟨_, _, rfl, rfl, by decide +kernel⟩⟩

/-- The fields of a PUT-PROFILE with slow-down distance S and cut distance C. -/
def profileFields (s c : Int) : List Field :=
  [(.profile, 0), (.slowDist, s), (.cutDist, c), (.windowDist, 5), (.approach, 2), (.takeupDist, 1), (.settle, 0),
    (.corrections, 7), (.timeLimit, 3600)]

theorem test_witness_ProfilesAreWrittenAndDropped :
    Fits .putProfile (profileFields 99 100) ∧ Fits .putProfile (profileFields 100 100) ∧
      Fits .putProfile (profileFields 0 100) ∧ Fits .dropProfile [(.profile, 0)] ∧
      (∃ e ∈ (tabled 1).tables.stations, e.2.profile = 0) ∧ (∀ e ∈ (tabled 0).tables.stations, e.2.profile ≠ 0) ∧
      (order 1) ∈ { driven with queue := [order 1] }.queue ∧ Table.find 0 (tabled 0).tables.profiles ≠ none := by
  decide +kernel

/-- The fields of an ENQUEUE to a position. -/
def enqueueFields : List Field := [(.axis, 0), (.orderTag, 1), (.target, 1000), (.profile, 0), (.chain, 1)]

theorem test_witness_EnqueueAppendsTheOrder :
    (FitsAxis .enqueue enqueueFields ∧ FitsAxis .enqueue [(.axis, 0), (.orderTag, 65535), (.station, 1)]) ∧
      bare.config.role = .watched ∧ driven.config.role = .driven ∧
      8 ≤ { driven with queue := (List.range 8).map order }.moveQueue.length ∧
      { driven with queue := (List.range 7).map order }.moveQueue.length < 8 ∧
      (∃ e ∈ { driven with queue := [order 1] }.moveQueue, e.tag = 1) ∧ (∀ e ∈ driven.moveQueue, e.tag ≠ 1) ∧
      Table.find (stationKey .axis0 1) opened.tables.stations = none ∧ Table.find 0 opened.tables.profiles = none ∧
      Table.find 0 (tabled 1).tables.profiles ≠ none ∧ (homing .switchEdge .seek false .unreferenced).motion.isHoming = true ∧
      driven.counting.reference = .referenced ∧ bare.counting.reference = .unreferenced := by decide +kernel

theorem test_witness_CancelRemovesOrders :
    (FitsAxis .cancel [(.axis, 0), (.orderTag, 1)] ∧ carries [(.axis, 0), (.orderTag, 1)] .all = false ∧
      (∀ o ∈ driven.moveQueue, o.tag ≠ 1) ∧ moving.motion = .moving (active (.slow .normal) 200) ∧
      (active (.slow .normal) 200).order.tag = 1 ∧ (∀ e ∈ moving.queue, e.tag ≠ 1) ∧
      { inState .waiting .off with queue := [] ++ order 1 :: [] }.queue = [] ++ order 1 :: []) ∧
    (FitsAxis .cancel [(.axis, 0), (.all, 1)] ∧ carries [(.axis, 0), (.all, 1)] .all = true) := by decide +kernel

theorem test_witness_HoldReleaseAndStopActByState :
    FitsAxis .hold [(.axis, 0)] ∧ FitsAxis .release [(.axis, 0)] ∧ FitsAxis .stop [(.axis, 0), (.flush, 1)] ∧
      driven.motion = .idle ∧ (inState .waiting .off).motion = .waiting ∧ (inState .held .off).motion = .held ∧
      moving.motion = .moving (active (.slow .normal) 200) ∧ (inState (run .indexOnly .awaitIndex) .off).motion.isHoming = true ∧
      (inState (jogging false) (.run .positive false)).motion = jogging false ∧ stalled.motion = .faulted := by
  decide +kernel

/-- The OPEN part with the profile 0 and an axis 0 whose queue has one order. -/
def due (x : Axis) : State := (tabled 1).setAxis .axis0 { x with queue := order 1 :: [] }

theorem test_witness_StartsTakeTheHead :
    ((due driven).axis .axis0).motion = .idle ∧ ((due driven).axis .axis0).queue = order 1 :: [] ∧
      (watching (due driven) [] [(1, ⟨[1, 2], [.axis0], .tripped⟩)]).monitor.guarded .axis0 = true ∧
      (due driven).monitor.guarded .axis0 = false ∧ ((due bare).axis .axis0).counting.reference = .unreferenced ∧
      Table.find (stationKey .axis0 2) (tabled 1).tables.stations = none ∧
      ((order 1).destination = .target 1000 0 ∧ Table.find 0 (tabled 1).tables.profiles = some profile) ∧
      ¬ (1000 : Int) ≤ rotary.config.modulus - 1 ∧
      planLeg .linear profile 0 (driven.config.aim profile 0 1000) = .run .positive true .fast ∧
      planLeg .linear profile 0 (driven.config.aim profile 995 1000) = .settle ∧
      (watching (due driven) [(1, window .occupied)] []).monitor.limitAgainst .axis0 .positive = true ∧
      driven.permits .positive = true ∧
      { driven with lockout := some ⟨.negative, 0, some ⟨200, 0⟩, 0⟩ }.permits .positive = false := by decide +kernel

theorem test_witness_LegStartsChooseDirectionAndLeg :
    (driven.config.kind = .linear ∧ rotary.config.kind = .rotary ∧ 0 < rotary.config.modulus) ∧
      (profile.approach = .either ∧ (-5 : Int) ≤ 1000 - 1005 ∧ ¬ (-5 : Int) ≤ 1000 - 1006) ∧
      ((profile.cut : Int) < 101 ∧ ¬ (profile.slow : Int) < 300 ∧ (profile.slow : Int) < 301) ∧
      ((∀ p ∈ [(5 : Int), 0, 11], (p - 0) % 16 ≤ profile.window ∨ (16 - (p - 0) % 16) % 16 ≤ profile.window) ∧
        (profile.window : Int) < (6 - 0) % 16 ∧ (profile.window : Int) < (16 - (6 - 0) % 16) % 16) ∧
      (planLeg .linear profile 0 (driven.config.aim profile 998 1000) = .settle ∧
        planLeg .linear profile 0 (driven.config.aim profile 0 1000) = .run .positive true .fast ∧
        { driven with lockout := some ⟨.negative, 0, some ⟨200, 0⟩, 0⟩ }.permits .positive = false ∧
        driven.permits .positive = true) := by decide +kernel

theorem test_witness_PositionChangesRunTheApproach :
    (∀ p ∈ [(Substate.fast, (301 : Int)), (.slow .normal, 101), (.slow .short, 6), (.coast ⟨100, 0⟩, 6),
      (.settle ⟨200, 0⟩, -5), (.reversing .negative, 40), (.takeup, 49)],
      (inState (.moving (active p.1 p.2)) .off).motion = .moving (active p.1 p.2)) ∧
    ((49 : Int) + 1 = profile.takeup ∧ (48 : Int) + 1 < profile.takeup ∧
      (inState (.moving (active .takeup 49)) (.run .negative true)).position = some 0 ∧ bare.position = none ∧
      (inState (.moving (active .takeup 49)) (.run .negative true)).lines = .run .negative true) ∧
    (301 - 1 ≤ (300 : Int) ∧ (100 : Int) < 302 - 1 ∧ (101 : Int) - 1 ≤ 100 ∧ (6 : Int) - 1 ≤ 5 ∧ ¬ (-5 : Int) ≤ -5 - 1) := by
  decide +kernel

/-- The axis settling or coasting with a remaining distance. -/
def atRest (sub : Substate) (d : Int) (used : Nat) : Axis :=
  inState (.moving { active sub d with corrections := used }) .off

theorem test_witness_OrdersEndOnceWithTheirOutcome :
    (moving.lines = .run .positive false ∧ (atRest (.settle ⟨200, 0⟩) 0 0).lines = .off) ∧
      (atRest (.settle ⟨200, 0⟩) 0 0).motion.settleTimer = some ⟨200, 0⟩ ∧ moving.motion.moveLimit = some ⟨30000, 0⟩ ∧
      ((opened.setAxis .axis0 moving).runTo ⟨30000, 0⟩ 999).timebase = 30000 ∧
      (({ opened with micros := 1 }.setAxis .axis0 moving).runTo ⟨30000, 0⟩ 999).timebase = 30001 ∧
      (opened.setAxis .axis0 moving).mayRun ((⟨30000, 0⟩ : Timer).wait 999) = true ∧
      (opened.setAxis .axis0 (atRest (.settle ⟨200, 0⟩) 0 0)).mayRun ((⟨200, 0⟩ : Timer).wait 999) = true ∧
      ((opened.setAxis .axis0 (inState (run .switchEdge .seek) .off)).mayRun ((⟨60000, 0⟩ : Timer).wait 999) = true ∧
        (inState (run .switchEdge .seek) .off).motion = run .switchEdge .seek) := by decide +kernel

theorem test_witness_RestIsJudged :
    (atRest (.coast ⟨100, 99000⟩) (-6) 1).motion.restTimer = some ⟨100, 99000⟩ ∧ ((-6 : Int) < -5) ∧ profile.corrections ≤ 1 ∧
      0 < profile.corrections ∧ (atRest (.coast ⟨100, 99000⟩) 6 0).position = some 0 ∧
      planLeg .linear profile 1 (driven.config.aim profile 0 1000) = .run .positive false (.slow .short) ∧
      planLeg .linear profile 1 (driven.config.aim profile 1005 1000) = .settle ∧
      (watching opened [(1, window .occupied)] []).monitor.limitAgainst .axis0 .positive = true ∧
      opened.monitor.limitAgainst .axis0 .positive = false ∧
      (opened.setAxis .axis0 (atRest (.coast ⟨100, 99000⟩) 6 0)).mayRun ((⟨100, 99000⟩ : Timer).wait 999) = true ∧
      { atRest (.coast ⟨100, 99000⟩) 6 0 with counting := bare.counting }.position = none ∧
      { atRest (.coast ⟨100, 99000⟩) 6 0 with lockout := some ⟨.negative, 0, some ⟨200, 0⟩, 0⟩ }.permits .positive = false := by
  decide +kernel

theorem test_witness_MonitorClaimsActByState :
    { moving with claims := [.stop] }.claims = .stop :: [] ∧
      { moving with claims := [.limit .positive, .stop] }.claims = .limit .positive :: [.stop] ∧
      moving.lines.dir = some .positive ∧ moving.lines.dir ≠ some .negative ∧
      { inState .waiting .off with claims := [.release] }.claims = .release :: [] ∧
      (inState .waiting .off).motion = .waiting ∧ driven.motion ≠ .waiting := by decide +kernel

theorem test_witness_LinesTurnOffIntoTheLockout :
    driven.lines = .off ∧ moving.lines = .run .positive false ∧ driven.lockout = none ∧
      { driven with lockout := some ⟨.negative, 7, none, 0⟩ }.lockout = some ⟨.negative, 7, none, 0⟩ ∧
      { driven with lockout := some ⟨.negative, 7, some ⟨20, 19000⟩, 0⟩ }.lockout = some ⟨.negative, 7, some ⟨20, 19000⟩, 0⟩ := by
  decide +kernel

theorem test_witness_JogsRunAndEnd :
    (FitsAxis .jog [(.axis, 0), (.direction, 0)] ∧
      FitsAxis .jog [(.axis, 0), (.direction, 2), (.speed, 1), (.deadman, 50)] ∧
      fieldInt [(.axis, 0), (.direction, 2)] .direction = Dir.negative.code) ∧
    (bare.config.role = .watched ∧ driven.config.role = .driven ∧ stalled.motion = .faulted ∧ driven.motion = .idle ∧
      driven.permits .negative = true ∧ (inState (jogging true) .off).motion = jogging true ∧
      (inState (jogging false) (.run .positive false)).lines = .run .positive false ∧
      opened.monitor.limitAgainst .axis0 .negative = false ∧
      (watching opened [(1, window .occupied)] []).monitor.limitAgainst .axis0 .positive = true ∧
      (opened.setAxis .axis0 (inState (jogging false) (.run .positive false))).mayRun
        ((⟨500, 0⟩ : Timer).wait 999) = true) := by decide +kernel

/-- The axis under a lockout with one millisecond left. -/
def locked (x : Axis) : Axis := { x with lockout := some ⟨.negative, 7, some ⟨20, 19000⟩, 0⟩ }

theorem test_witness_LockoutExpiryHandsOn_motions :
    let after (x : Axis) : Axis := ((opened.setAxis .axis0 (locked x)).runTo ⟨20, 19000⟩ 0).axis .axis0
    (∀ x ∈ [driven, inState (jogging true) .off, inState (run .switchEdge .seek) .off,
        inState (run .switchEdge .seek) (.run .negative false), atRest (.reversing .positive) 1000 0, moving,
        inState (jogging false) (.run .negative true)],
      (opened.setAxis .axis0 (locked x)).mayRun ((⟨20, 19000⟩ : Timer).wait 999) = true) ∧
    (after (inState (jogging true) .off)).motion = .jogging ⟨.positive, .creep, ⟨500, 1000⟩, true⟩ ∧
    (after (inState (jogging false) (.run .negative true))).motion = .jogging ⟨.positive, .creep, ⟨500, 1000⟩, false⟩ ∧
    ((after (inState (run .switchEdge .seek) .off)).motion.isHoming = true ∧
      (after (inState (run .switchEdge .seek) .off)).lines = .off) ∧
    ((after (inState (run .switchEdge .seek) (.run .negative false))).lines = .run .negative false) ∧
    ((after { bare with motion := run .switchEdge .seek }).config.role = .watched ∧
      (after { bare with motion := run .switchEdge .seek }).motion.isHoming = true) ∧
    (after moving).motion = .moving { active (.slow .normal) 200 with moveLimit := some ⟨30000, 1000⟩ } ∧
    { atRest (.reversing .positive) 1000 0 with counting := bare.counting }.position = none := by decide +kernel

theorem test_witness_LockoutExpiryHandsOn :
    { driven with lockout := some ⟨.negative, 7, some ⟨20, 19000⟩, 0⟩ }.lockout = some ⟨.negative, 7, some ⟨20, 19000⟩, 0⟩ ∧
      driven.motion = .idle ∧ (inState (jogging true) .off).motion = jogging true ∧
      (inState (run .switchEdge .seek) .off).motion = run .switchEdge .seek ∧
      (inState (run .switchEdge .seek) .off).config.role = .driven ∧
      (atRest (.reversing .positive) 1000 0).motion = .moving { active (.reversing .positive) 1000 with corrections := 0 } ∧
      (atRest (.reversing .positive) 1000 0).position = some 0 ∧
      planLeg .linear profile 0 (driven.config.aim profile 0 1000) = .run .positive true .fast := by decide +kernel

theorem test_witness_WindowsContainAndGuardsKeepState :
    ((window .vacant).lower ≤ (window .vacant).upper ∧ { window .vacant with lower := 10 }.upper < 10) ∧
      ((∀ n ∈ [1], occupancyAt [(1, window .occupied)] n = .occupied) ∧
        (∃ n ∈ [1, 2], occupancyAt [(1, window .occupied)] n ≠ .occupied) ∧
        (∃ n ∈ [1], occupancyAt [(1, window .vacant)] n = .vacant) ∧
        (∀ n ∈ [1], occupancyAt [(1, window .unknown)] n ≠ .vacant)) := by decide +kernel

theorem test_witness_WindowsContainAndGuardsKeepState_unreferenced :
    ((under driven .occupied .ping []).MonitorOk ∧ (under bare .unknown .ping []).MonitorOk) ∧
      ((under bare .unknown .ping []).axis .axis0).counting.reference = .unreferenced ∧
      Table.wf (under bare .unknown .ping []).monitor.guards ∧
      ∀ e ∈ (watching opened [(1, window .unknown)] [(1, ⟨[1, 1], [.axis1], .tripped⟩)]).monitor.guards,
        e.2.state = .tripped ∧ ∀ n ∈ e.2.members, occupancyAt [(1, window .unknown)] n ≠ .vacant :=
  ⟨⟨monitorOk_under (by decide +kernel) (by decide +kernel), monitorOk_under (by decide +kernel) (by decide +kernel)⟩,
    by decide +kernel, List.pairwise_singleton _ _, by decide +kernel⟩

/-- An edge that carries the axis into both windows trips the guard: WINDOW and GUARD notices, a stop claim to its stop axis
and a limit claim for each window (R127, R130, R132, R133). -/
theorem test_edge_trips_the_guard :
    ∃ t, exec (.countEdge .axis0 ⟨true, false⟩ [])
        (under { driven with counting := { driven.counting with raw := -1 } } .vacant .ping []) = .next t ∧
      t.notices.entries.map (·.body) =
        [.startup .power, .window 1 .enter 0, .window 2 .enter 0, .guard 1 .tripped] ∧
      (t.axis .axis1).claims = [.stop] ∧ (t.axis .axis0).claims = [.limit .positive, .limit .positive] :=
  ⟨_, rfl, by decide +kernel⟩

theorem test_witness_OutputsFollowOwnersAndHost :
    ((∀ e ∈ (watching opened [(1, window .occupied)] []).monitor.windows, e.2.output ≤ 8) ∧
      (watching opened [(1, window .occupied)] []).monitor.owned.getLsbD 0 = true ∧
      (watching opened [(1, window .occupied)] []).monitor.owned.getLsbD 7 = false) ∧
    (Fits .setOutputs [(.mask, 255), (.values, 129)] ∧
      BitVec.ofInt 8 255 &&& (watching opened [(1, window .occupied)] []).monitor.owned ≠ 0 ∧
      BitVec.ofInt 8 255 &&& opened.monitor.owned = 0) := by decide +kernel

theorem test_witness_PutWindowWritesTheSlot :
    (FitsAxis .putWindow [(.axis, 0), (.window, 48), (.lower, 5), (.upper, 4)] ∧
      FitsAxis .putWindow [(.axis, 0), (.window, 1), (.lower, 5), (.upper, 5), (.output, 8), (.limitRole, 2)] ∧
      FitsAxis .putWindow [(.axis, 0), (.window, 1), (.lower, 16), (.upper, 0)] ∧
      FitsAxis .putWindow [(.axis, 0), (.window, 1), (.lower, 15), (.upper, 16)]) ∧
    (driven.config.kind = .linear ∧ rotary.config.kind = .rotary ∧ (rotary.config.modulus : Int) ≤ 16 ∧
      (15 : Int) < rotary.config.modulus) := by decide +kernel

theorem test_witness_PutWindowWritesTheSlot_capacities (fs : List Field) :
    (under driven .occupied .putWindow fs).CapacitiesOk ∧ (under bare .unknown .putWindow fs).CapacitiesOk :=
  ⟨(monitorOk_under (by decide +kernel) (by decide +kernel)).2,
    (monitorOk_under (by decide +kernel) (by decide +kernel)).2⟩

theorem test_witness_WindowsAndGuardsAreDroppedAndRead :
    (Fits .dropWindow [(.window, 1)] ∧ Fits .getWindow [(.window, 48)] ∧ Fits .dropGuard [(.guard, 12)] ∧
      Fits .getGuard [(.guard, 1)]) ∧
    (Table.find 1 opened.monitor.windows = none ∧
      Table.find 1 (watching opened [(1, window .vacant)] []).monitor.windows = some (window .vacant) ∧
      (∃ e ∈ [(1, (⟨[1, 2], [.axis0], .clear⟩ : Guard))], 1 ∈ e.2.members) ∧
      Table.find 12 [(12, (⟨[1, 2], [.axis0], .tripped⟩ : Guard))] = some ⟨[1, 2], [.axis0], .tripped⟩) := by
  decide +kernel

/-- The fields of a PUT-GUARD on slot 1 with the given lists. -/
def guardFields (ms stops : List Int) : List Field :=
  (.guard, 1) :: ms.map (fun m => (.member, m)) ++ stops.map (fun a => (.stopAxis, a))

theorem test_witness_PutGuardWritesTheSlot :
    (∀ p ∈ [([1], [0]), ([1, 1], [0]), ([1, 2, 3, 4], [0, 1, 2, 3]), ([1, 2], [0, 0])],
      Fits .putGuard (guardFields p.1 p.2)) ∧
    (¬ [1, 1].Nodup ∧ [1, 2].Nodup ∧ ¬ 2 ≤ [1].length ∧ [1, 2, 3, 4].length ≤ 4 ∧
      (∀ k ∈ [1, 2], (Table.find k [(1, window .occupied), (2, window .occupied)]).isSome = true) ∧
      ¬ (∀ k ∈ [1, 2], (Table.find k [(1, window .occupied)]).isSome = true)) := by decide +kernel

theorem test_witness_PutGuardWritesTheSlot_capacities (fs : List Field) :
    (under driven .occupied .putGuard fs).CapacitiesOk :=
  (monitorOk_under (by decide +kernel) (by decide +kernel)).2

/-- A PUT-GUARD over OCCUPIED members trips at once: GUARD, and a stop claim to each stop axis (R132, R133, R141). -/
theorem test_put_guard_trips :
    ∃ t, exec .putGuard (under driven .occupied .putGuard (guardFields [2, 1] [3, 0])) = .next t ∧
      t.notices.entries.map (·.body) = [.startup .power, .guard 1 .tripped] ∧
      Table.find 1 t.monitor.guards = some ⟨[2, 1], [.axis3, .axis0], .tripped⟩ ∧
      (t.axis .axis0).claims = [.stop] ∧ (t.axis .axis3).claims = [.stop] ∧ (t.axis .axis1).claims = [] :=
  ⟨_, rfl, by decide +kernel⟩

/-- The axis with a capture mode and n records in its ring. -/
def logging (m : CaptureMode) (n : Nat) : Axis :=
  { driven with log := ⟨m, List.replicate n ⟨1, .rise, 0, none, 0, none, false⟩, 65535⟩ }

theorem test_witness_CapturesAreTakenAndRead :
    ((logging .rise 8).motion.isHoming = false ∧ (logging .rise 8).pins.sense = true ∧
      (false == decide ((logging .rise 8).config.senseLevel = .activeHigh)) = true ∧ (logging .rise 8).log.mode = .rise ∧
      (logging .off 0).log.mode = .off) ∧
    (FitsAxis .setCapture [(.axis, 0), (.captureMode, 3)] ∧ FitsAxis .readCaptures [(.axis, 0), (.count, 5)]) := by
  decide +kernel

/-- A Notice Queue of n ordinary notices. -/
def held (n : Nat) : NoticeQueue := ⟨(List.range n).map (fun k => notice (k + 1) false), n + 1⟩

/-- A full Notice Queue with its marker. -/
def overfull : NoticeQueue := ⟨(held 31).entries ++ [⟨32, 0, .discarded 65535, false⟩], 33⟩

theorem test_witness_OffersJoinOrAreCounted :
    (held 30).ordinary < 31 ∧ 31 ≤ (held 31).ordinary ∧ (∀ e ∈ (held 31).entries, e.isMarker = false) ∧
      31 ≤ overfull.ordinary ∧ overfull.entries = (held 31).entries ++ ⟨32, 0, .discarded 65535, false⟩ :: [] ∧
      (∀ e ∈ (held 31).entries ++ [], e.isMarker = false) := by decide +kernel

theorem test_witness_NoticesAreAcknowledgedAndResent :
    (Fits .ackNotices [(.seq, 2)] ∧ Fits .resendNotices []) ∧
      (∀ e ∈ [notice 1 true, notice 2 false], e.seq = 2 → e.sent = false) ∧
      ((notice 2 true).seq = 2 ∧ (notice 2 true).sent = true ∧ (∀ e ∈ [notice 1 true], e.seq ≠ 2) ∧
        (∀ e ∈ [notice 1 true] ++ [notice 2 true], e.isMarker = false)) ∧
      ([notice 1 true] ++ [(⟨2, 0, .discarded 3, true⟩ : Notice)] = [notice 1 true] ++ ⟨2, 0, .discarded 3, true⟩ :: []) := by
  decide +kernel

end Sys2Proof.Tests
end

section
namespace Sys2Proof.Machine

/-! ### Faults -/

/-- What a fault record needs of an axis: entering a fault reads the record and the raw count, and writes the record. -/
theorem Axis.recordFault_congr {x y : Axis} (a : AxisId) (now : Time) (k : FaultKind)
    (hf : y.counting.fault = x.counting.fault) (hr : y.counting.raw = x.counting.raw) :
    Axis.recordFault a now k y =
      ({ y with counting := { y.counting with fault := (Axis.recordFault a now k x).1.counting.fault } },
        (Axis.recordFault a now k x).2) := by
  unfold Axis.recordFault
  rw [hf, hr]
  cases hx : x.counting.fault with
  | none => rfl
  | some r =>
    dsimp only
    split
    · rw [hx, ← hf.trans hx]
    · rfl

/-- A fault entered writes the fault record and nothing else of the Counting Unit. -/
theorem Axis.recordFault_counting (a : AxisId) (now : Time) (k : FaultKind) (x : Axis) :
    (Axis.recordFault a now k x).1.counting =
      { x.counting with fault := (Axis.recordFault a now k x).1.counting.fault } :=
  congrArg (fun e : Taken => e.1.counting) (Axis.recordFault_congr (y := x) a now k rfl rfl)

/-- The position is a matter of configuration, reference, raw count, base and shift. -/
theorem Axis.position_congr {x y : Axis} (hc : y.config = x.config)
    (hn : y.counting = { x.counting with fault := y.counting.fault }) : y.position = x.position := by
  unfold Axis.position Axis.formed
  rw [hc, hn]

/-- The notice of an operation that ends (R70, R33, R119); an axis that stands still gives none. -/
theorem Axis.endOperation_notices (a : AxisId) (now : Time) (why : Reason) (x : Axis) :
    (x.endOperation a now why).2 =
      match x.motion with
      | .moving o => [.orderDone a o.order.tag why x.position o.corrections]
      | .homing _ => [.homeFailed a why]
      | .jogging _ => [.jogEnded a why]
      | _ => [] := by
  unfold Axis.endOperation
  cases x.motion <;> rfl

/-- An axis that stands still has no operation to end. -/
theorem Axis.endOperation_still {x : Axis} (h : x.motion.inMotion = false) (a : AxisId) (now : Time) (why : Reason) :
    x.endOperation a now why = (x, []) := by
  unfold Axis.endOperation
  cases hm : x.motion with
  | moving o | homing r | jogging j => rw [hm] at h; cases h
  | idle | held | waiting | faulted => rfl

/-- A fault claim on an axis in motion turns its lines off (R17). -/
theorem Axis.takeFault_inMotion {x : Axis} (h : x.motion.inMotion = true) (a : AxisId) (now : Time) (k : FaultKind) :
    x.takeFault a now k =
      ({ x.turnOff now with stall := none, motion := .faulted, holdPending := false },
        (x.endOperation a now k.reason).2) := by
  unfold Axis.takeFault Axis.endOperation
  cases hm : x.motion with
  | moving o => rfl
  | homing r => rfl
  | jogging j => rfl
  | idle | held | waiting | faulted => rw [hm] at h; cases h

/-- A fault claim on an axis that stands still changes the motion state and the flag alone (R17). -/
theorem Axis.takeFault_still {x : Axis} (h : x.motion.inMotion = false) (a : AxisId) (now : Time) (k : FaultKind) :
    x.takeFault a now k = ({ x with motion := .faulted, holdPending := false }, []) := by
  unfold Axis.takeFault
  rw [Axis.endOperation_still h]

/-- All that STALL does (R15 to R17): lines off, the record, FAULTED; its FAULT notice, then that of the operation it
ends. -/
theorem Axis.stalls_eq (a : AxisId) (now : Time) (x : Axis) :
    x.stalls a now =
      ({ x.turnOff now with
          counting := (Axis.recordFault a now .stall x).1.counting
          stall := none, motion := .faulted, holdPending := false },
        (Axis.recordFault a now .stall x).2 ++ (x.endOperation a now .stall).2) := by
  have hrec : Axis.recordFault a now .stall { x.turnOff now with stall := none } =
      ({ x.turnOff now with stall := none, counting := (Axis.recordFault a now .stall x).1.counting },
        (Axis.recordFault a now .stall x).2) := by
    rw [Axis.recordFault_congr (x := x) a now .stall (by simp) (by simp), Axis.recordFault_counting a now .stall x]
    simp
  unfold Axis.stalls
  dsimp only
  rw [hrec]
  generalize hy : ({ x.turnOff now with
    stall := none, counting := (Axis.recordFault a now .stall x).1.counting } : Axis) = y
  have hmotion : y.motion = x.motion := by subst hy; exact x.turnOff_motion now
  have hlines : y.turnOff now = y := y.turnOff_of_off now (by subst hy; exact x.turnOff_lines now)
  have hposition : y.position = x.position := by
    subst hy
    exact Axis.position_congr (x.turnOff_config now) (Axis.recordFault_counting a now .stall x)
  have hnotices : (y.endOperation a now .stall).2 = (x.endOperation a now .stall).2 := by
    rw [Axis.endOperation_notices, Axis.endOperation_notices, hmotion, hposition]
  rw [← hnotices]
  cases hm : x.motion.inMotion with
  | true =>
    rw [Axis.takeFault_inMotion (by rw [hmotion, hm]), hlines]
    subst hy
    rfl
  | false =>
    have hstill : y.motion.inMotion = false := by rw [hmotion, hm]
    rw [Axis.takeFault_still hstill, Axis.endOperation_still hstill]
    subst hy
    rfl

end Sys2Proof.Machine
end

section
namespace Sys2Proof.Machine

/-! ### A property of every axis through a step -/

/-- What each operation on an axis keeps, every step keeps for every axis: a step runs a command or lets time pass. -/
theorem Axis.Kept.step {p : Axis → Prop} (k : Axis.Kept p) : KeptByStep (State.All p) := by
  intro s t h e
  unfold Machine.step at e
  split at e
  · rename_i c rest _
    exact State.All.exec k c (show (s.withPending rest).All p from h) e
  · split at e
    · exact State.All.exec k _ h e
    · cases e
      exact h.advance k.steady 1000

/-! ### The operations that Laws/Lines.lean leaves open keep the lines -/

/-- STALL leaves an axis that stands still with its lines off, whatever was in motion. -/
theorem Axis.linesOk_stalls {a : AxisId} {now : Time} {x : Axis} (h : x.LinesOk) : (x.stalls a now).1.LinesOk := by
  rw [Axis.stalls_eq]
  exact Axis.steady_linesOk.counting _ _ (Axis.linesOk_still now h .faulted false (by simp))

theorem Axis.linesOk_resetTo (x : Axis) (low : Bool) : (x.resetTo low).LinesOk :=
  Axis.linesOk_off rfl rfl rfl (fun _ => ⟨rfl, trivial⟩)

theorem Axis.configurable_iff {x : Axis} :
    x.configurable = true ↔ (x.motion = .idle ∨ x.motion = .held) ∧ x.queue = [] := by
  simp [Axis.configurable]

/-- A configuration is stored on an axis that stands still without orders: it has its lines off under any ROLE. -/
theorem Axis.linesOk_configure {x : Axis} (c : AxisConfig) (hx : x.configurable = true) (h : x.LinesOk) :
    (x.configure c).LinesOk := by
  obtain ⟨hm, hq⟩ := Axis.configurable_iff.1 hx
  have hl : x.lines = .off := h.off_of (by rcases hm with e | e <;> rw [e] <;> rfl)
  have hfit : x.motion.linesFit .off ∧ x.motion.watchedState := by
    rcases hm with e | e <;> rw [e] <;> exact ⟨rfl, trivial⟩
  unfold Axis.configure
  dsimp only
  split
  · exact Axis.linesOk_off hl (h.stall hl) hfit.1 (fun _ => ⟨hq, hfit.2⟩)
  · exact Axis.linesOk_off hl (h.stall hl) hfit.1 (fun _ => ⟨hq, hfit.2⟩)

theorem Motion.isFaulted_iff {m : Motion} : m.isFaulted = true ↔ m = .faulted := by
  cases m <;> simp [Motion.isFaulted]

theorem Axis.linesOk_clearFault {x : Axis} (hf : x.motion.isFaulted = true) (h : x.LinesOk) : x.clearFault.LinesOk := by
  have hl : x.lines = .off := h.off_of (by rw [Motion.isFaulted_iff.1 hf]; rfl)
  exact Axis.linesOk_off hl (h.stall hl) rfl (fun hd => ⟨(h.watched hd).2.1, trivial⟩)

/-- Only a DRIVEN axis accepts an order. -/
theorem Axis.driven_of_accepts {x : Axis} {a : AxisId} {t : TableStore} {o : Order}
    (h : Axis.refusesOrder a t o x = none) : x.driven = true := by
  unfold Axis.refusesOrder at h
  split at h
  · cases h
  · rename_i hd
    simpa using hd

theorem Axis.linesOk_enqueue {x : Axis} {q : List Order} (hd : x.driven = true) (h : x.LinesOk) :
    ({ x with queue := q } : Axis).LinesOk :=
  ⟨h.fit, h.permitted, h.stall, fun e => absurd (show x.driven = false from e) (by simp [hd])⟩

/-- The Capture Log of an axis is no part of its lines. -/
theorem Axis.linesOk_log {x : Axis} (l : CaptureLog) (h : x.LinesOk) : ({ x with log := l } : Axis).LinesOk :=
  ⟨h.fit, h.permitted, h.stall, h.watched⟩

theorem Axis.linesOk_capture {a : AxisId} {now : Time} {b : Bool} {x : Axis} (h : x.LinesOk) :
    (x.capture a now b).1.LinesOk := by
  unfold Axis.capture
  generalize (if b = true then Edge.rise else Edge.fall) = e
  dsimp only
  split
  · exact Axis.linesOk_log _ h
  · exact h

/-- Each operation on an axis keeps the lines of the axis. -/
theorem Axis.kept_linesOk : Axis.Kept Axis.LinesOk where
  steady := Axis.steady_linesOk
  reset := Axis.linesOk_resetTo
  configure := fun _ _ => Axis.linesOk_configure _
  clearFault := fun _ => Axis.linesOk_clearFault
  homingGoes := fun _ _ _ => Axis.linesOk_homingGoes
  enqueue := fun _ _ _ _ hr => Axis.linesOk_enqueue (Axis.driven_of_accepts hr)
  cancelTag := fun _ _ _ _ => Axis.linesOk_cancelTag
  cancelAll := fun _ _ _ => Axis.linesOk_cancelAll
  hold := fun _ => Axis.linesOk_hold
  release := fun _ => Axis.linesOk_release
  stop := fun _ _ _ _ => Axis.linesOk_stop
  jogNone := fun _ _ _ => Axis.linesOk_jogNone
  jog := fun _ _ _ _ _ hd hm h => Axis.linesOk_jog h hd hm
  setCapture := fun _ _ => Axis.linesOk_log _
  readCaptures := fun _ _ => Axis.linesOk_log _
  capture := fun _ _ _ _ => Axis.linesOk_capture
  holdQueue := fun _ => Axis.linesOk_holdQueue
  linkLost := fun _ _ _ => Axis.linesOk_linkLost
  countEvent := fun _ => Axis.linesOk_countEvent
  positionMoved := fun _ _ _ _ _ => Axis.linesOk_positionMoved
  endHoming := fun _ _ _ _ => Axis.linesOk_endHoming
  stalls := fun _ _ _ => Axis.linesOk_stalls
  failHoming := fun _ _ _ _ => Axis.linesOk_failHoming
  endOrder := fun _ _ _ _ _ _ => Axis.linesOk_endOrder
  judgeRest := fun _ _ _ _ _ _ hm hs h => Axis.linesOk_judgeRest h hm hs
  lockoutExpired := fun _ _ _ _ => Axis.linesOk_lockoutExpired
  endJog := fun _ _ _ _ => Axis.linesOk_endJog
  takeStart := fun _ _ _ _ _ _ => Axis.linesOk_takeStart
  takeStop := fun _ _ _ => Axis.linesOk_takeStop
  takeLimit := fun _ _ _ _ => Axis.linesOk_takeLimit
  takeRelease := fun _ => Axis.linesOk_takeRelease
  takeFault := fun _ _ _ _ => Axis.linesOk_takeFault

/-- Settles O10: the lines of one axis are kept by each operation on it (`Axis.kept_linesOk`), so by every step. -/
theorem stepsKeepTheLines : Obligations.StepsKeepTheLines := Axis.kept_linesOk.step

/-! ### Resets -/

theorem PairMismatch.any_iff {m : PairMismatch} : PairMismatch.any m = false ↔ m = ⟨false, false, false⟩ := by
  rcases m with ⟨_ | _, _ | _, _ | _⟩ <;> decide

/-- A reset leaves every block in its reset state (R192). -/
theorem State.resetTo_resetOf (s : State) (cause : Cause) (st : Straps) (held : Bool) :
    ResetOf cause st held s (s.resetTo cause st held) where
  axes a := by
    have hr : State.reset.axis a = Axis.reset .initial := by cases a <;> rfl
    have ht : (if PairMismatch.any (s.axis a).pins.mismatch then some (⟨1, 0⟩ : Timer) else none) =
        if (s.axis a).pins.mismatch = ⟨false, false, false⟩ then none else some ⟨1, 0⟩ := by
      by_cases h : (s.axis a).pins.mismatch = ⟨false, false, false⟩
      · rw [if_pos h, PairMismatch.any_iff.2 h]
        rfl
      · rw [if_neg h, if_pos (by simpa using mt PairMismatch.any_iff.1 h)]
    rw [State.resetTo_axis, hr, ← ht]
    rfl
  tables := rfl
  monitor := rfl
  notices := rfl
  link := rfl
  timebase := rfl
  micros := rfl
  pending := rfl

/-- The configuration of an axis after any reset is the one after power-up. -/
theorem State.resetTo_config (s : State) (cause : Cause) (st : Straps) (held : Bool) (a : AxisId) :
    ((s.resetTo cause st held).axis a).config =
      ⟨.watched, .linear, 16777215, .normal, .shortest, 0, 0, false, 0, 100, 200, .activeLow⟩ := by
  rw [State.resetTo_axis]
  rfl

theorem State.resetTo_lockout (s : State) (cause : Cause) (st : Straps) (held : Bool) (a : AxisId) :
    ((s.resetTo cause st held).axis a).lockout = (s.axis a).resetLockout s.link.resetnLow := by
  rw [State.resetTo_axis]
  rfl

/-- The RUN-off a reset enters is that of the line that was on. -/
theorem Axis.resetLockout_run {x : Axis} {d : Dir} {h : Bool} (hl : x.lines = .run d h) (low : Bool) :
    x.resetLockout low = some ⟨d, 0, some ⟨200, 0⟩, 0⟩ := by
  unfold Axis.resetLockout
  rw [hl]
  rfl

/-- With the lines off, only a reset that RESETN has begun before keeps a RUN-off. -/
theorem Axis.resetLockout_off {x : Axis} (hl : x.lines = .off) (low : Bool) :
    x.resetLockout low = if low then x.lockout.map (fun r => ⟨r.line, 0, some ⟨200, 0⟩, 0⟩) else none := by
  unfold Axis.resetLockout
  rw [hl]
  rfl

/-- Settles O5: the state after power-up is read off field by field, and RESETN is `State.resetTo` with cause POWER. -/
theorem resetTakesTheResetState : Obligations.ResetTakesTheResetState := by
  unfold Obligations.ResetTakesTheResetState
  refine ⟨⟨fun a => ?_, ?_⟩, fun s st held => ?_⟩
  · cases a <;> decide
  · decide
  · refine ⟨s.resetTo .power st held, rfl, s.resetTo_resetOf _ _ _, ?_, ?_, ?_, ?_, fun a => ⟨?_, ?_, ?_⟩⟩
    · rintro rfl; rfl
    · rintro rfl; rfl
    · rintro rfl; rfl
    · rintro rfl; rfl
    · intro d h hl
      rw [State.resetTo_lockout, Axis.resetLockout_run hl]
    · intro hl hlow
      rw [State.resetTo_lockout, Axis.resetLockout_off hl, hlow]
      rfl
    · intro hl hlow
      rw [State.resetTo_lockout, Axis.resetLockout_off hl, hlow]
      rfl

@[simp] theorem State.lossAt_link (stopped : List AxisId) (s : State) (b : Block) : (s.lossAt stopped b).link = s.link := by
  cases b <;> simp [State.lossAt]

/-- Of the Link Port a link loss changes what `LinkPort.lose` says; the blocks that take it leave it alone. -/
theorem State.linkLoss_link (s : State) (order : List Block) : (s.linkLoss order).link = s.link.lose := by
  have hfold : ∀ (m : List AxisId) (bs : List Block) (u : State), (bs.foldl (State.lossAt m) u).link = u.link := by
    intro m bs
    induction bs with
    | nil => exact fun _ => rfl
    | cons b bs ih => exact fun u => (ih (u.lossAt m b)).trans (u.lossAt_link m b)
  unfold State.linkLoss
  rw [hfold]
  rfl

/-- Settles O6: each of the three ways to a reset ends in `State.resetTo`. -/
theorem resetGivesTheResetConfiguration : Obligations.ResetGivesTheResetConfiguration := by
  intro s a st
  refine ⟨fun held => ⟨_, rfl, s.resetTo_config _ _ _ a⟩, ?_, ?_⟩
  · intro f late hf hrun hphase
    refine ⟨(s.runTo f.timer late).resetTo .request st false, ?_, State.resetTo_config ..⟩
    have hends : State.frameEnds st (s.runTo f.timer late) = (s.runTo f.timer late).resetTo .request st false := by
      unfold State.frameEnds
      rw [show (s.runTo f.timer late).link.restart = .replySending from hphase]
    show Host.Outcome.next (s.expire (s.link.transmitter.map TxFrame.timer) late _) = _
    rw [hf, Option.map_some, State.expire_some hrun, hends]
  · intro k order late hk hrun hopen hphase
    have hrestart : ((s.runTo k late).linkLoss order).link.restart = .replyWaiting := by
      rw [State.linkLoss_link]
      exact hphase
    refine ⟨((s.runTo k late).linkLoss order).resetTo .request st false, ?_, State.resetTo_config ..⟩
    show Host.Outcome.next (s.expire s.link.keepalive late _) = _
    rw [hk, State.expire_some hrun, show (s.runTo k late).link.session = .opened from hopen]
    dsimp only
    unfold State.restartAfterLoss
    rw [hrestart]

end Sys2Proof.Machine
end

section
namespace Sys2Proof.Machine

/-! ### Requests answered -/

/-- A reply to a request whose rule leaves the Link Port alone. -/
theorem State.reply_of_link {s t : State} (h : t.link = s.link) (r : Request) (ans : Answer) :
    State.reply r.tag (ans, t.setLink s.link.popIntake) = t.answered r ans := by
  rw [← h]
  rfl

/-- A served request whose rule leaves the Link Port alone: its effect, and its answer behind it. -/
theorem Serves.executes {s t : State} {c : ReqCode} {r : Request} {fs : List Field} (h : Serves s c r fs)
    {own : List Field → State → Answer × State} {ans : Answer}
    (ho : own fs (s.setLink s.link.popIntake) = (ans, t.setLink s.link.popIntake)) (hl : t.link = s.link) :
    s.execute c own = t.answered r ans := by
  rw [State.execute_serves s c r fs own h, ho, State.reply_of_link hl]

/-- The axis that a served request names by its AXIS field. -/
theorem Serves.axis {s : State} {c : ReqCode} {r : Request} {fs : List Field} (h : Serves s c r fs)
    (hc : FieldId.axis ∈ c.required) :
    0 ≤ fieldInt fs .axis ∧ fieldInt fs .axis ≤ 3 ∧ ((fieldAxis fs).num : Int) = fieldInt fs .axis := by
  obtain ⟨v, -, hv, hr⟩ := h.required hc
  have hw : within 0 3 (fieldInt fs .axis) = true := by rw [hv]; exact hr
  exact ⟨(within_iff.1 hw).1, (within_iff.1 hw).2, AxisId.num_ofNum hw⟩

/-- Settles O27: GET-AXIS answers the fields of the configuration on the state as it is. -/
theorem getAxisReportsTheConfiguration : Obligations.GetAxisReportsTheConfiguration := by
  rintro s r fs a h rfl
  exact ⟨congrArg Host.Outcome.next (h.executes (own := getAxisRule) (t := s) rfl rfl), h.axis (by decide)⟩

/-! ### AXIS-STATUS -/

theorem fieldList_append (fs gs : List Field) (f : FieldId) : fieldList (fs ++ gs) f = fieldList fs f ++ fieldList gs f := by
  simp [fieldList]

/-- A field that may be absent is no occurrence of another. -/
theorem fieldList_optional {f g : FieldId} (h : f ≠ g) (v : Option Int) : fieldList (optionalField f v) g = [] := by
  cases v <;> simp [fieldList, optionalField, h]

/-- The fault fields, present while the axis is FAULTED and has a record (R19). -/
theorem Axis.faultFields_eq (x : Axis) :
    x.faultFields =
      match x.motion, x.counting.fault with
      | .faulted, some f =>
        [(.firstFault, (f.first.code : Int)), (.faultTime, f.time.toNat), (.faultCount, f.count.toInt)] ++
          f.later.map (fun k => (.laterFault, (k.code : Int)))
      | _, _ => [] := by
  unfold Axis.faultFields
  cases x.motion <;> cases x.counting.fault <;> rfl

/-- ORDER-TAG is reported while the axis is MOVING (table 1-2). -/
theorem Axis.tagField_eq (x : Axis) :
    optionalField .orderTag (x.activeTag.map Int.ofNat) =
      match x.motion with
      | .moving o => [(.orderTag, (o.order.tag : Int))]
      | _ => [] := by
  unfold Axis.activeTag
  cases x.motion <;> rfl

/-- The fields of AXIS-STATUS, those that are always there first. -/
theorem Axis.statusFields_perm (a : AxisId) (x : Axis) :
    (x.statusFields a).Perm
      ([((.axis : FieldId), (a.num : Int)), (.rawCount, x.counting.raw.toInt),
          (.reference, x.counting.reference.code), (.motion, x.motion.code), (.substate, x.motion.substateCode),
          (.queueLength, x.moveQueue.length), (.lines, x.lines.code), (.holdPending, flagValue x.holdPending),
          (.captures, x.log.ring.length), (.shift, x.counting.shift)] ++
        optionalField .position x.position ++ optionalField .orderTag (x.activeTag.map Int.ofNat) ++ x.faultFields) := by
  unfold Axis.statusFields
  refine List.perm_iff_count.2 (fun e => ?_)
  simp only [List.count_append, List.count_cons, List.count_nil]
  ring

/-- Only the fault fields of AXIS-STATUS hold a LATER-FAULT. -/
theorem Axis.statusFields_laterFault (a : AxisId) (x : Axis) :
    fieldList (x.statusFields a) .laterFault = fieldList x.faultFields .laterFault := by
  unfold Axis.statusFields
  simp only [fieldList_append, fieldList_optional (show FieldId.position ≠ .laterFault by decide),
    fieldList_optional (show FieldId.orderTag ≠ .laterFault by decide)]
  simp [fieldList]

/-- Settles O28: the reply fields are those of table 1-2 in another order. -/
theorem axisStatusReportsTheAxis : Obligations.AxisStatusReportsTheAxis := by
  rintro s r fs a h rfl
  have hperm := (s.axis (fieldAxis fs)).statusFields_perm (fieldAxis fs)
  have hlater := (s.axis (fieldAxis fs)).statusFields_laterFault (fieldAxis fs)
  have hposition : optionalField .position (s.axis (fieldAxis fs)).position =
      match (s.axis (fieldAxis fs)).position with
      | none => []
      | some p => [(.position, p)] := by
    cases (s.axis (fieldAxis fs)).position <;> rfl
  rw [Axis.tagField_eq, Axis.faultFields_eq, hposition] at hperm
  rw [Axis.faultFields_eq] at hlater
  exact ⟨_, congrArg Host.Outcome.next (h.executes (own := axisStatusRule) (t := s) rfl rfl), hperm, hlater⟩

/-- Settles O29: the three cases of `clearFaultRule`. -/
theorem clearFaultReturnsTheAxisToHeld : Obligations.ClearFaultReturnsTheAxisToHeld := by
  rintro s r fs a h rfl
  have hexec {t : State} {ans : Answer}
      (ho : clearFaultRule fs (s.setLink s.link.popIntake) = (ans, t.setLink s.link.popIntake)) (hl : t.link = s.link) :
      exec .clearFault s = .next (t.answered r ans) :=
    congrArg Host.Outcome.next (h.executes ho hl)
  refine ⟨fun hm => hexec (t := s) ?_ rfl, fun hm hfault hcheck => hexec (t := s) ?_ rfl,
    fun hm hclear => hexec (t := s.setAxis (fieldAxis fs) _) ?_ rfl⟩
  · have hnot : (s.axis (fieldAxis fs)).motion.isFaulted = false := by
      simpa using mt Motion.isFaulted_iff.1 hm
    simp only [clearFaultRule, State.setLink_axis, hnot, if_true]
    rfl
  · simp only [clearFaultRule, State.setLink_axis, Motion.isFaulted_iff.2 hm, hfault, hcheck]
    rfl
  · have hboth : ((s.axis (fieldAxis fs)).counting.lineFault && (s.axis (fieldAxis fs)).config.lineCheck) = false := by
      rcases hclear with e | e <;> simp [e]
    simp only [clearFaultRule, State.setLink_axis, Motion.isFaulted_iff.2 hm, hboth]
    rfl

/-! ### Captures -/

/-- The edge of a SENSE state that has just been taken. -/
def edgeOf (active : Bool) : Edge := if active then .rise else .fall

theorem CaptureMode.records_iff {m : CaptureMode} {active : Bool} :
    m.records (edgeOf active) = true ↔ m = .both ∨ (active = true ∧ m = .rise) ∨ (active = false ∧ m = .fall) := by
  cases m <;> cases active <;> simp [CaptureMode.records, edgeOf]

/-- An edge that the mode asks for is recorded (R150, R152, R153). -/
theorem Axis.capture_records {x : Axis} {active : Bool} (hm : x.motion.isHoming = false)
    (hr : x.log.mode.records (edgeOf active) = true) (a : AxisId) (now : Time) :
    x.capture a now active =
      ({ x with
          log :=
            { x.log with
              ring := ringWith x.log.ring (x.captureRecord now (edgeOf active))
              nextNumber := nextNumber x.log.nextNumber } },
        if x.log.ring = [] then [.captureWaiting a] else []) := by
  unfold Axis.capture
  rw [show (if active = true then Edge.rise else Edge.fall) = edgeOf active from rfl]
  simp [hr, hm]

/-- An edge that the mode does not ask for is passed over (R149). -/
theorem Axis.capture_passes {x : Axis} {active : Bool} (hr : x.log.mode.records (edgeOf active) = false) (a : AxisId)
    (now : Time) : x.capture a now active = (x, []) := by
  unfold Axis.capture
  rw [show (if active = true then Edge.rise else Edge.fall) = edgeOf active from rfl]
  simp [hr]

/-- With no HOME that an edge of SENSE meets, the edge executes no request. -/
theorem State.homeAtEdge_none {s : State} {order : List Block}
    (h : Block.before .linkPort .captureLog order = false ∨ s.dueRequest (some .home) = none) : s.homeAtEdge order = s := by
  unfold State.homeAtEdge
  rcases h with h | h
  · rw [h]
    rfl
  · split
    · unfold State.execute
      rw [h]
    · rfl

/-- SENSE on a level (R11). -/
theorem Axis.senseActive_at (x : Axis) (high : Bool) :
    (x.senseLevel high).senseActive = (high == decide (x.config.senseLevel = .activeHigh)) := by
  unfold Axis.senseActive Axis.senseLevel
  cases x.config.senseLevel <;> cases high <;> rfl

/-- An edge of SENSE on an axis that is not homing, with no HOME that meets it, reaches the Capture Log alone. -/
theorem State.senseChange_captured {s : State} {a : AxisId} {high : Bool} {order : List Block}
    (hm : (s.axis a).motion.isHoming = false)
    (hh : Block.before .linkPort .captureLog order = false ∨ s.dueRequest (some .home) = none) :
    s.senseChange a high order =
      (s.modifyAxis a (Axis.senseLevel high)).logSense a
        (high == decide ((s.axis a).config.senseLevel = .activeHigh)) := by
  have haxis : (s.modifyAxis a (Axis.senseLevel high)).axis a = (s.axis a).senseLevel high := by simp
  have hhome := State.homeAtEdge_none (s := s.modifyAxis a (Axis.senseLevel high)) (order := order) hh
  have hmotion : ((s.axis a).senseLevel high).motion = (s.axis a).motion := rfl
  unfold State.senseChange
  dsimp only
  rw [haxis, Axis.senseActive_at, hhome, hmotion]
  cases e : (s.axis a).motion with
  | homing r => rw [e] at hm; cases hm
  | idle | held | waiting | moving | jogging | faulted => rfl

theorem State.take_setAxis (s : State) (a : AxisId) (x : Axis) (f : Axis → Taken) :
    (s.setAxis a x).take a f = (s.setAxis a (f x).1).offers (f x).2 := by
  unfold State.take
  rw [State.setAxis_axis, if_pos rfl]
  congr 1
  unfold State.setAxis
  rw [Quad.set_set]

/-- The group of a capture record, field by field (R154). -/
theorem Capture.fields_eq (c : Capture) :
    c.fields =
      [(.captureNo, (c.number : Int)), (.edge, c.edge.code), (.rawCount, c.raw.toInt), (.time, c.time.toNat),
        (.overwrote, if c.overwrote then 1 else 0)] ++
        (match c.position with
          | none => []
          | some p => [(.position, p)]) ++
        (match c.orderTag with
          | none => []
          | some k => [(.orderTag, (k : Int))]) := by
  obtain ⟨_, _, _, p, _, k, _⟩ := c
  cases p <;> cases k <;> rfl

/-- Settles O58: `Axis.capture` by the mode, and the two requests on the ring. -/
theorem capturesAreTakenAndRead : Obligations.CapturesAreTakenAndRead := by
  refine ⟨fun s a high order hm hh => ?_, fun s r fs a ha => ?_⟩
  · have hedge (hne : (s.axis a).pins.sense ≠ high) :
        exec (.senseEdge a high order) s =
          .next (((s.modifyAxis a (Axis.senseLevel high)).logSense a
            (high == decide ((s.axis a).config.senseLevel = .activeHigh)))) := by
      rw [← State.senseChange_captured hm hh]
      exact congrArg Host.Outcome.next (if_neg hne)
    refine ⟨fun heq => congrArg Host.Outcome.next (if_pos heq), fun hne hasks => ?_, fun hne hasks => ?_⟩
    · rw [hedge hne]
      refine congrArg Host.Outcome.next ((s.take_setAxis a _ _).trans ?_)
      rw [Axis.capture_passes]
      · rfl
      · exact Bool.eq_false_iff.2 (mt CaptureMode.records_iff.1 hasks)
    · rw [hedge hne]
      refine congrArg Host.Outcome.next ((s.take_setAxis a _ _).trans ?_)
      rw [Axis.capture_records]
      · rfl
      · exact hm
      · exact CaptureMode.records_iff.2 hasks
  · subst ha
    refine ⟨fun h => ?_, fun h => ?_⟩
    · exact congrArg Host.Outcome.next (h.executes (own := setCaptureRule) (t := s.setAxis (fieldAxis fs) _) rfl rfl)
    · refine congrArg Host.Outcome.next
        (h.executes (own := readCapturesRule) (t := s.setAxis (fieldAxis fs) _) ?_ rfl)
      unfold readCapturesRule
      simp only [State.setLink_axis, List.length_drop, funext Capture.fields_eq]
      rfl

end Sys2Proof.Machine
end

section
namespace Sys2Proof.Machine

/-! ### Losses of reference -/

theorem State.setAxis_setAxis (s : State) (a : AxisId) (x y : Axis) : (s.setAxis a x).setAxis a y = s.setAxis a y := by
  unfold State.setAxis
  rw [Quad.set_set]

/-- Whether an event loses the reference is seen at the axis before it. -/
theorem State.setAxis_lost {s : State} {a : AxisId} {y : Axis}
    (h : y.counting.reference = (s.axis a).counting.reference) (z : Axis) : (s.setAxis a y).lost a z = s.lost a z := by
  unfold State.lost
  rw [State.setAxis_axis, if_pos rfl, h, State.setAxis_setAxis]

/-- What an axis does behind its loss of reference. -/
theorem State.lost_setAxis (s : State) (a : AxisId) (y z : Axis) : (s.lost a y).setAxis a z = s.lost a z := by
  unfold State.lost
  split
  · exact congrArg (fun t : State => t.windowsUnknown a) (s.setAxis_setAxis a y z)
  · exact s.setAxis_setAxis a y z

/-- A further loss behind a loss of reference is none. -/
theorem State.lost_lost {s : State} {a : AxisId} {y : Axis} (h : y.counting.reference = .unreferenced) (z : Axis) :
    (s.lost a y).lost a z = s.lost a z := by
  rw [State.lost_unreferenced (by simpa using h), State.lost_setAxis]

/-- All a loss of reference does, where only a REFERENCED axis has need of sound windows and guards. -/
theorem State.loseReference_lost {s : State} {a : AxisId}
    (h : (s.axis a).counting.reference = .referenced → s.MonitorOk) :
    s.loseReference a = s.lost a { s.axis a with counting := (s.axis a).counting.dropped } := by
  cases hr : (s.axis a).counting.reference with
  | unreferenced =>
    rw [State.lost_unreferenced hr, CountingUnit.dropped_unreferenced hr]
    unfold State.loseReference
    rw [hr]
    exact (State.setAxis_self s a).symm
  | referenced => exact State.loseReference_eq (h hr).guards (h hr).sound

/-- A loss of reference leaves the guards sound: its windows are UNKNOWN, not VACANT. -/
theorem State.sound_lost {s : State} (h : s.monitor.Sound) (a : AxisId) {x : Axis}
    (hx : x.counting.reference = .unreferenced) : (s.lost a x).monitor.Sound := by
  unfold State.lost
  split
  · intro e he ht n hn
    show occupancyAt (s.monitor.windows.map _) n ≠ .vacant
    rw [← retest_unreferenced hx]
    rcases occupancyAt_unreferenced hx a s.monitor.windows n with k | k <;> rw [k]
    · exact h e he ht n hn
    · decide
  · exact h

@[simp] theorem State.lost_timebase (s : State) (a : AxisId) (x : Axis) : (s.lost a x).timebase = s.timebase := by
  unfold State.lost
  split <;> rfl

@[simp] theorem State.lost_guards (s : State) (a : AxisId) (x : Axis) : (s.lost a x).monitor.guards = s.monitor.guards := by
  unfold State.lost
  split <;> rfl

/-- A counting fault raised by an event that has changed the axis, neither its reference nor what the record needs. -/
theorem State.setAxis_raise {s : State} {a : AxisId} {x y : Axis} (hg : Table.wf s.monitor.guards) (hw : s.monitor.Sound)
    (hr : y.counting.reference = (s.axis a).counting.reference) (hf : y.counting.fault = x.counting.fault)
    (hn : y.counting.raw = x.counting.raw) (k : FaultKind) :
    (s.setAxis a y).raise a k =
      (s.lost a { y with
        counting :=
          { y.counting.dropped with fault := (Axis.recordFault a s.timebase k x).1.counting.fault }
        faultClaims := y.faultClaims ++ [k] }).offers (Axis.recordFault a s.timebase k x).2 := by
  rw [State.raise_eq (s := s.setAxis a y) hg hw k, State.setAxis_axis, if_pos rfl, State.setAxis_lost hr,
    State.setAxis_timebase, Axis.recordFault_congr a s.timebase k hf hn]
  rfl

/-- A counting fault raised by an event that has lost the reference before. -/
theorem State.lost_raise {s : State} {a : AxisId} {x y : Axis} (hg : Table.wf s.monitor.guards) (hw : s.monitor.Sound)
    (hr : y.counting.reference = .unreferenced) (hf : y.counting.fault = x.counting.fault)
    (hn : y.counting.raw = x.counting.raw) (k : FaultKind) :
    (s.lost a y).raise a k =
      (s.lost a { y with
        counting :=
          { y.counting.dropped with fault := (Axis.recordFault a s.timebase k x).1.counting.fault }
        faultClaims := y.faultClaims ++ [k] }).offers (Axis.recordFault a s.timebase k x).2 := by
  rw [State.raise_eq (by simpa using hg) (State.sound_lost hw a hr) k, State.lost_axis, if_pos rfl, State.lost_lost hr,
    State.lost_timebase, Axis.recordFault_congr a s.timebase k hf hn]
  rfl

/-- The Counting Unit behind a fault that is recorded and drops the reference. -/
theorem Axis.recordFault_dropped (a : AxisId) (now : Time) (k : FaultKind) (x : Axis) :
    (Axis.recordFault a now k x).1.counting.dropped =
      { x.counting.dropped with fault := (Axis.recordFault a now k x).1.counting.fault } :=
  congrArg CountingUnit.dropped (Axis.recordFault_counting a now k x)

/-! ### Fault claims -/

/-- The lines of an axis turn off whatever its Counting Unit and the fault claims in flight are. -/
theorem Axis.turnOff_with (now : Time) (x : Axis) (c : CountingUnit) (ks : List FaultKind) :
    ({ x with counting := c, faultClaims := ks } : Axis).turnOff now =
      { x.turnOff now with counting := c, faultClaims := ks } := by
  obtain ⟨_, _, _, _, _, _, l, _, _, _, _, _⟩ := x
  cases l <;> rfl

/-- The reference that a fault claim finds is dropped inside the claim, STALL apart (R10, R34). -/
theorem State.dropGained_eq {s : State} {a : AxisId} {k : FaultKind} {rest : List FaultKind}
    (hc : (s.axis a).faultClaims = k :: rest) : s.dropGained a = if k = .stall then s else s.loseReference a := by
  unfold State.dropGained
  rw [hc]
  cases k <;> rfl

/-- The oldest fault claim in flight is taken, behind the loss of the reference that the axis may have. -/
theorem State.faultClaim_eq {s : State} {a : AxisId} {k : FaultKind} {rest : List FaultKind}
    (hc : (s.axis a).faultClaims = k :: rest)
    (hok : k ≠ .stall ∧ (s.axis a).counting.reference = .referenced → s.MonitorOk) :
    let c : CountingUnit := if k = .stall then (s.axis a).counting else (s.axis a).counting.dropped
    let e := ({ s.axis a with counting := c, faultClaims := rest } : Axis).takeFault a s.timebase k
    exec (.faultClaim a) s = .next ((if k = .stall then s.setAxis a e.1 else s.lost a e.1).offers e.2) := by
  refine congrArg Host.Outcome.next ?_
  rw [State.dropGained_eq hc]
  unfold State.take Axis.faultClaim
  by_cases hk : k = .stall
  · simp only [if_pos hk, hc]
  · simp only [if_neg hk, State.loseReference_lost (fun hr => hok ⟨hk, hr⟩), State.lost_axis, if_true, hc,
      State.lost_setAxis]

/-- A fault claim on an axis in motion, whose Counting Unit it leaves as `c`. -/
theorem Axis.takeFault_claimed {x : Axis} (h : x.motion.inMotion = true) (a : AxisId) (now : Time) (k : FaultKind)
    (c : CountingUnit) (rest : List FaultKind) :
    ({ x with counting := c, faultClaims := rest } : Axis).takeFault a now k =
      ({ x.turnOff now with
          counting := c, faultClaims := rest, stall := none, motion := .faulted, holdPending := false },
        (({ x with counting := c, faultClaims := rest } : Axis).endOperation a now k.reason).2) :=
  (Axis.takeFault_inMotion (x := { x with counting := c, faultClaims := rest }) h a now k).trans
    (by rw [Axis.turnOff_with])

/-- An axis whose reference is dropped has no position, one taken by STALL keeps its own. -/
theorem Axis.position_claimed (x : Axis) (k : FaultKind) (rest : List FaultKind) :
    ({ x with
        counting := if k = .stall then x.counting else x.counting.dropped
        faultClaims := rest } : Axis).position = if k = .stall then x.position else none := by
  split <;> rfl

/-- Settles O30: the record by `Axis.recordFault`, the claim by `State.faultClaim_eq`, STALL by `Axis.stalls_eq`. -/
theorem faultsEndOperations : Obligations.FaultsEndOperations := by
  refine ⟨fun a now k x => ⟨fun hf => ?_, fun f hf hin => ?_, fun f hf h1 h2 => ?_⟩, fun s a k rest hc => ?_,
    fun s a late t ht hrun => ?_⟩
  · simp only [Axis.recordFault, hf]
  · simp only [Axis.recordFault, hf, if_pos hin]
  · simp only [Axis.recordFault, hf, if_neg (not_or.2 ⟨h1, h2⟩)]
  · intro x drops counting left off hok
    have hexec {e : Taken}
        (he : ({ x with counting := counting, faultClaims := rest } : Axis).takeFault a s.timebase k = e) :
        exec (.faultClaim a) s = .next ((if k = .stall then s.setAxis a e.1 else s.lost a e.1).offers e.2) := by
      subst he
      exact State.faultClaim_eq hc hok
    have hends (hm : x.motion.inMotion = true) : exec (.faultClaim a) s = .next ((left off).offers
        (({ x with counting := counting, faultClaims := rest } : Axis).endOperation a s.timebase k.reason).2) :=
      hexec (Axis.takeFault_claimed hm a s.timebase k counting rest)
    refine ⟨fun o hm => ?_, fun h hm => ?_, fun j hm => ?_, fun hm => ?_⟩
    · rw [hends (by rw [hm]; rfl), Axis.endOperation_notices, Axis.position_claimed]
      dsimp only
      rw [hm]
    · rw [hends (by rw [hm]; rfl), Axis.endOperation_notices]
      dsimp only
      rw [hm]
    · rw [hends (by rw [hm]; rfl), Axis.endOperation_notices]
      dsimp only
      rw [hm]
    · exact hexec (Axis.takeFault_still (x := { x with counting := counting, faultClaims := rest }) hm a s.timebase k)
  · intro v x record off gives
    have hexec : exec (.stallTimerExpiry a late) s =
        .next ((v.setAxis a off).offers (record.2 ++ (x.endOperation a v.timebase .stall).2)) := by
      show Host.Outcome.next (s.expire (s.axis a).stall late _) = _
      rw [ht, State.expire_some hrun]
      unfold State.take
      rw [Axis.stalls_eq]
    rw [Axis.endOperation_notices] at hexec
    refine ⟨fun o hm => ?_, fun h hm => ?_, fun j hm => ?_, fun hm => ?_, (Axis.recordFault_fst a _ .stall x).2⟩
    · rw [hm] at hexec; exact hexec
    · rw [hm] at hexec; exact hexec
    · rw [hm] at hexec; exact hexec
    · cases e : x.motion with
      | moving | homing | jogging => rw [e] at hm; cases hm
      | idle | held | waiting | faulted => rw [e] at hexec; exact hexec

end Sys2Proof.Machine
end

section
namespace Sys2Proof.Machine

/-! ### Edges -/

/-- Both lines or neither have changed: no edge to count (R6). -/
theorem leadsOf_none {old new : EncoderLevels} (h : old.a ≠ new.a ↔ old.b ≠ new.b) : leadsOf old new = none := by
  unfold leadsOf
  rw [if_neg (by tauto), if_neg (by tauto)]

/-- One of the two lines has changed: whether A leads B (R6). -/
theorem leadsOf_some {old new : EncoderLevels} (h : ¬ (old.a ≠ new.a ↔ old.b ≠ new.b)) :
    leadsOf old new = some (if old.a ≠ new.a then new.a != new.b else new.a == new.b) := by
  unfold leadsOf
  by_cases ha : old.a = new.a
  · rw [if_neg (by tauto), if_pos (by tauto), if_neg (by tauto)]
  · rw [if_pos (by tauto), if_pos ha]

/-- A count event behind a counted edge. -/
theorem Axis.countEvent_count (l : EncoderLevels) (d : Dir) (x : Axis) : (x.count l d).countEvent = x.counted l d := by
  unfold Axis.countEvent Axis.counted
  obtain ⟨_, _, _, m, _, _, _, _, _, _, _, _⟩ := x
  cases m with
  | moving o =>
    obtain ⟨_, _, _, _, _, _, _, _, _, sub, _, _, _⟩ := o
    cases sub <;> rfl
  | idle | held | waiting | homing | jogging | faulted => rfl

/-- An edge that is not counted moves the pins alone (R6). -/
theorem State.countEdge_none {s : State} {a : AxisId} {l : EncoderLevels} (h : leadsOf (s.axis a).pins.encoder l = none)
    (order : List Block) :
    s.countEdge a l order =
      s.setAxis a { s.axis a with pins := { (s.axis a).pins with encoder := l } } := by
  unfold State.countEdge
  dsimp only
  rw [h]

/-- A counted edge (R6, R8, R14): behind the count event, nothing on an UNREFERENCED axis, OVERRANGE out of the position
range, else a position change. -/
theorem State.countEdge_some {s : State} {a : AxisId} {l : EncoderLevels} {leads : Bool}
    (h : leadsOf (s.axis a).pins.encoder l = some leads) (order : List Block) :
    let d := (s.axis a).config.countSense.direction leads
    let y := (s.axis a).counted l d
    let u := s.setAxis a y
    s.countEdge a l order =
      match y.counting.reference with
      | .unreferenced => u
      | .referenced =>
        if y.config.kind = .linear ∧ inPositionRange y.formed = false then u.raise a .overrange
        else if Block.before (.axisController a) .windowMonitor order then (u.controllerMoves a d).windowsOf a
        else (u.windowsOf a).controllerMoves a d := by
  unfold State.countEdge
  dsimp only
  rw [h]
  dsimp only
  rw [Axis.countEvent_count]
  rfl

/-- The direction of an edge under COUNT-SENSE. -/
theorem CountSense.direction_eq (c : CountSense) (leads : Bool) :
    c.direction leads = if leads == decide (c = .normal) then .positive else .negative := by
  cases c <;> cases leads <;> rfl

/-- A count in a direction. -/
theorem Dir.count_eq (up : Bool) (raw : Count) :
    raw + BitVec.ofInt 32 (if up then Dir.positive else Dir.negative).sign = if up then raw + 1 else raw - 1 := by
  cases up
  · exact (BitVec.sub_eq_add_neg raw 1).symm
  · rfl

/-- A counted edge of an UNREFERENCED axis is the count event and nothing else. -/
theorem State.countEdge_unreferenced {s : State} {a : AxisId} {l : EncoderLevels} {leads : Bool}
    (h : leadsOf (s.axis a).pins.encoder l = some leads) (hr : (s.axis a).counting.reference = .unreferenced)
    (order : List Block) :
    s.countEdge a l order =
      s.setAxis a ((s.axis a).counted l ((s.axis a).config.countSense.direction leads)) := by
  have hy : ((s.axis a).counted l ((s.axis a).config.countSense.direction leads)).counting.reference = .unreferenced := hr
  have hedge := State.countEdge_some h order
  dsimp only at hedge
  rw [hy] at hedge
  exact hedge

/-- The axis behind a counted edge whose raw count comes out as `raw`. -/
theorem Axis.counted_of_raw {x : Axis} {d : Dir} {raw : Count} (h : x.counting.raw + BitVec.ofInt 32 d.sign = raw)
    (l : EncoderLevels) :
    x.counted l d =
      { x.counted l d with counting := { x.counting with raw := raw, lastDir := some d } } := by
  subst h
  rfl

/-- Settles O31: `State.countEdge` on an axis without a reference. -/
theorem edgesCountOnUnreferencedAxes : Obligations.EdgesCountOnUnreferencedAxes := by
  intro s a l order x old leads up
  refine ⟨fun h => congrArg Host.Outcome.next (State.countEdge_none (leadsOf_none h) order), fun hr h => ?_⟩
  have hdirection : x.config.countSense.direction leads = if up then .positive else .negative :=
    CountSense.direction_eq x.config.countSense leads
  have hcounted := Axis.counted_of_raw (Dir.count_eq up x.counting.raw) l
  have hedge : s.countEdge a l order = s.setAxis a (x.counted l (if up then .positive else .negative)) :=
    (State.countEdge_unreferenced (leadsOf_some h) hr order).trans
      (congrArg (fun d => s.setAxis a (x.counted l d)) hdirection)
  exact congrArg Host.Outcome.next (hedge.trans (congrArg (s.setAxis a) hcounted))

/-! ### Positions -/

theorem Axis.formed_eq (x : Axis) :
    x.formed =
      if x.config.kind = .rotary then ((x.counting.raw + x.counting.base).toInt + x.counting.shift) % x.config.modulus
      else (x.counting.raw + x.counting.base).toInt + x.counting.shift := by
  unfold Axis.formed
  cases x.config.kind <;> rfl

theorem Axis.position_referenced {x : Axis} (h : x.counting.reference = .referenced) : x.position = some x.formed := by
  unfold Axis.position
  rw [h]

/-- A count that does not wrap counts by one. -/
theorem Dir.toInt_add_sign {c : Count} {d : Dir} (hlo : -2147483648 ≤ c.toInt + d.sign)
    (hhi : c.toInt + d.sign ≤ 2147483647) : (c + BitVec.ofInt 32 d.sign).toInt = c.toInt + d.sign := by
  have hd : (BitVec.ofInt 32 d.sign).toInt = d.sign := by cases d <;> rfl
  rw [BitVec.toInt_add, hd]
  exact Int.bmod_eq_of_le (by omega) (by omega)

/-- The sum of R8 behind a counted edge. -/
theorem Axis.counted_sum (x : Axis) (l : EncoderLevels) (d : Dir) :
    (x.counted l d).counting.raw + (x.counted l d).counting.base =
      x.counting.raw + x.counting.base + BitVec.ofInt 32 d.sign := by
  show x.counting.raw + BitVec.ofInt 32 d.sign + x.counting.base = _
  rw [BitVec.add_assoc, BitVec.add_comm (BitVec.ofInt 32 d.sign), ← BitVec.add_assoc]

theorem Axis.counted_formed_linear {x : Axis} (l : EncoderLevels) (d : Dir) (hk : x.config.kind = .linear)
    (hp : -67108863 ≤ x.formed ∧ x.formed ≤ 67108863)
    (hs : -16777215 ≤ x.counting.shift ∧ x.counting.shift ≤ 16777215) : (x.counted l d).formed = x.formed + d.sign := by
  have hsign : d.sign = 1 ∨ d.sign = -1 := by cases d <;> simp [Dir.sign]
  rw [Axis.formed_eq, hk, if_neg (by decide)] at hp
  rw [Axis.formed_eq, Axis.formed_eq, if_neg (show ¬ (x.counted l d).config.kind = .rotary by
    rw [show (x.counted l d).config.kind = .linear from hk]; decide), if_neg (by rw [hk]; decide), Axis.counted_sum,
    Dir.toInt_add_sign (by omega) (by omega)]
  show _ + x.counting.shift = _
  ring

theorem Axis.counted_formed_rotary {x : Axis} (l : EncoderLevels) (d : Dir) (hk : x.config.kind = .rotary)
    (hlo : -2147483648 ≤ (x.counting.raw + x.counting.base).toInt + d.sign)
    (hhi : (x.counting.raw + x.counting.base).toInt + d.sign ≤ 2147483647) :
    (x.counted l d).formed = (x.formed + d.sign) % x.config.modulus := by
  rw [Axis.formed_eq, Axis.formed_eq, if_pos (show (x.counted l d).config.kind = .rotary from hk), if_pos hk,
    Axis.counted_sum, Dir.toInt_add_sign hlo hhi, Int.emod_add_emod]
  show (_ + x.counting.shift) % _ = _
  congr 1
  ring

/-! ### Position changes -/

/-- An end of the active order leaves the orders that wait. -/
theorem Axis.endOrder_queue (a : AxisId) (now : Time) (o : ActiveOrder) (why : Reason) (x : Axis) :
    (x.endOrder a now o why).1.queue = x.queue := x.turnOff_queue now

theorem Axis.beginLeg_queue (a : AxisId) (now : Time) (l : Dir → Bool) (o : ActiveOrder) (d : Dir) (h : Bool)
    (sub : Substate) (x : Axis) : (x.beginLeg a now l o d h sub).1.queue = x.queue := by
  unfold Axis.beginLeg
  split
  · exact x.endOrder_queue a now o _
  · split <;> rfl

theorem Axis.legStart_queue (a : AxisId) (now : Time) (l : Dir → Bool) (p : Int) (o : ActiveOrder) (x : Axis) :
    (x.legStart a now l p o).1.queue = x.queue := by
  unfold Axis.legStart
  dsimp only
  split
  · rfl
  · exact x.beginLeg_queue ..

theorem Axis.cut_queue (a : AxisId) (now : Time) (o : ActiveOrder) (x : Axis) : (x.cut a now o).1.queue = x.queue := by
  unfold Axis.cut
  dsimp only
  split
  · exact x.turnOff_queue now
  · exact x.turnOff_queue now

theorem Axis.slowMoved_queue (a : AxisId) (now : Time) (k : LegKind) (o : ActiveOrder) (x : Axis) :
    (x.slowMoved a now k o).1.queue = x.queue := by
  unfold Axis.slowMoved
  split
  · split
    · exact x.cut_queue a now o
    · rfl
  · split
    · exact x.turnOff_queue now
    · rfl

theorem Axis.fastMoved_queue (a : AxisId) (now : Time) (o : ActiveOrder) (x : Axis) :
    (x.fastMoved a now o).1.queue = x.queue := by
  unfold Axis.fastMoved
  split
  · exact (Axis.slowMoved_queue ..).trans (x.setHigh_queue false)
  · rfl

theorem Axis.takeupMoved_queue (a : AxisId) (now : Time) (l : Dir → Bool) (o : ActiveOrder) (x : Axis) :
    (x.takeupMoved a now l o).1.queue = x.queue := by
  unfold Axis.takeupMoved
  split
  · exact (Axis.legStart_queue ..).trans (x.turnOff_queue now)
  · split
    · exact x.setHigh_queue false
    · rfl

theorem Axis.coastMoved_queue (a : AxisId) (o : ActiveOrder) (x : Axis) : (x.coastMoved a o).1.queue = x.queue := by
  unfold Axis.coastMoved
  split
  · rfl
  · split <;> rfl

theorem Axis.settleMoved_queue (a : AxisId) (o : ActiveOrder) (x : Axis) : (x.settleMoved a o).1.queue = x.queue := by
  unfold Axis.settleMoved
  split <;> rfl

/-- A position change leaves the orders that wait. -/
theorem Axis.positionMoved_queue (a : AxisId) (now : Time) (l : Dir → Bool) (d : Dir) (x : Axis) :
    (x.positionMoved a now l d).1.queue = x.queue := by
  unfold Axis.positionMoved
  split
  · generalize (if d = _ then _ else _ : Int) = dist
    dsimp only
    split
    · exact x.takeupMoved_queue ..
    · exact x.fastMoved_queue ..
    · exact x.slowMoved_queue ..
    · exact x.coastMoved_queue ..
    · exact x.settleMoved_queue ..
    · rfl
  all_goals rfl

/-- An axis that is not MOVING does nothing with a position change (R80). -/
theorem Axis.positionMoved_standing {x : Axis} (h : ∀ o, x.motion ≠ .moving o) (a : AxisId) (now : Time) (l : Dir → Bool)
    (d : Dir) : x.positionMoved a now l d = (x, []) := by
  unfold Axis.positionMoved
  cases hm : x.motion with
  | moving o => exact absurd hm (h o)
  | idle | held | waiting | homing | jogging | faulted => rfl

/-- A count event starts no order. -/
theorem Axis.counted_standing {x : Axis} (h : ∀ o, x.motion ≠ .moving o) (l : EncoderLevels) (d : Dir) :
    (x.counted l d).motion = x.motion := by
  unfold Axis.counted
  dsimp only
  cases hm : x.motion with
  | moving o => exact absurd hm (h o)
  | idle | held | waiting | homing | jogging | faulted => rfl

/-- An axis that is not MOVING leaves the whole position change to the Window Monitor. -/
theorem State.controllerMoves_standing {s : State} {a : AxisId} (h : ∀ o, (s.axis a).motion ≠ .moving o) (d : Dir) :
    s.controllerMoves a d = s := by
  unfold State.controllerMoves State.take
  dsimp only
  rw [Axis.positionMoved_standing h]
  exact State.setAxis_self s a

/-- The windows of an axis are tested by its position and its KIND. -/
theorem retest_congr {x y : Axis} (hp : y.position = x.position) (hk : y.config = x.config) (a : AxisId)
    (ws : Table Window) : retest a y ws = retest a x ws := by
  have htest : ∀ v : Window, v.test y = v.test x := fun v => by
    unfold Window.test
    rw [hp, hk]
  unfold retest
  simp only [htest]

theorem Axis.SameButClaims.controlled {x y : Axis} (h : x.SameButClaims y) :
    y.config = x.config ∧ y.counting = x.counting ∧ y.queue = x.queue ∧ y.log = x.log ∧ y.faultClaims = x.faultClaims ∧
      y.motion = x.motion := by
  rw [show y = { x with claims := y.claims } from h]
  exact ⟨rfl, rfl, rfl, rfl, rfl, rfl⟩

/-- What a position change of an axis leaves as it was, whichever of its two blocks has taken it. -/
structure State.MovedFrom (s : State) (a : AxisId) (x : Axis) (t : State) : Prop where
  counting : (t.axis a).counting = x.counting
  config : (t.axis a).config = x.config
  queue : (t.axis a).queue = x.queue
  log : (t.axis a).log = x.log
  faultClaims : (t.axis a).faultClaims = x.faultClaims
  others : ∀ b, b ≠ a → (s.axis b).SameButClaims (t.axis b)
  hostValues : t.monitor.hostValues = s.monitor.hostValues
  tables : t.tables = s.tables
  link : t.link = s.link
  timebase : t.timebase = s.timebase
  micros : t.micros = s.micros

theorem State.MovedFrom.position {s t : State} {a : AxisId} {x : Axis} (h : s.MovedFrom a x t) :
    (t.axis a).position = x.position :=
  Axis.position_congr h.config (by rw [h.counting])

theorem State.MovedFrom.setAxis (s : State) (a : AxisId) (x : Axis) : s.MovedFrom a x (s.setAxis a x) := by
  have hself : (s.setAxis a x).axis a = x := by rw [State.setAxis_axis, if_pos rfl]
  constructor
  case others =>
    intro b hb
    rw [State.setAxis_axis, if_neg hb]
    exact Axis.SameButClaims.refl _
  case hostValues | tables | link | timebase | micros => rfl
  all_goals rw [hself]

/-- The Axis Controller takes its part of a position change. -/
theorem State.MovedFrom.controllerMoves {s t : State} {a : AxisId} {x : Axis} (h : s.MovedFrom a x t) (d : Dir) :
    s.MovedFrom a x (t.controllerMoves a d) := by
  have hacts := (t.axis a).acts_positionMoved a t.timebase (t.monitor.limitAgainst a) d
  have haxis : (t.controllerMoves a d).axis a =
      (Axis.positionMoved a t.timebase (t.monitor.limitAgainst a) d (t.axis a)).1 := by simp [State.controllerMoves]
  constructor
  · rw [haxis, hacts.counting, h.counting]
  · rw [haxis, hacts.config, h.config]
  · rw [haxis, Axis.positionMoved_queue, h.queue]
  · rw [haxis, hacts.log, h.log]
  · rw [haxis, hacts.faultClaims, h.faultClaims]
  · intro b hb
    have : (t.controllerMoves a d).axis b = t.axis b := by simp [State.controllerMoves, hb]
    rw [this]
    exact h.others b hb
  all_goals simp [State.controllerMoves, h.hostValues, h.tables, h.link, h.timebase, h.micros]

/-- The Window Monitor takes its part of a position change. -/
theorem State.MovedFrom.windowsOf {s t : State} {a : AxisId} {x : Axis} (h : s.MovedFrom a x t) :
    s.MovedFrom a x (t.windowsOf a) := by
  obtain ⟨hconfig, hcounting, hqueue, hlog, hfault, -⟩ := (t.windowsOf_same a a).controlled
  constructor
  · rw [hcounting, h.counting]
  · rw [hconfig, h.config]
  · rw [hqueue, h.queue]
  · rw [hlog, h.log]
  · rw [hfault, h.faultClaims]
  · exact fun b hb => (h.others b hb).trans (t.windowsOf_same a b)
  all_goals simp [h.hostValues, h.tables, h.link, h.timebase, h.micros]

theorem inPositionRange_iff {v : Int} : inPositionRange v = true ↔ -67108863 ≤ v ∧ v ≤ 67108863 := within_iff

/-- A counted edge of a REFERENCED axis that stays in the position range is a position change. -/
theorem State.countEdge_moves {s : State} {a : AxisId} {l : EncoderLevels} {leads : Bool}
    (h : leadsOf (s.axis a).pins.encoder l = some leads) (hr : (s.axis a).counting.reference = .referenced)
    (order : List Block) :
    let d := (s.axis a).config.countSense.direction leads
    let y := (s.axis a).counted l d
    let u := s.setAxis a y
    ((s.axis a).config.kind = .linear → -67108863 ≤ y.formed ∧ y.formed ≤ 67108863) →
    s.countEdge a l order =
      if Block.before (.axisController a) .windowMonitor order then (u.controllerMoves a d).windowsOf a
      else (u.windowsOf a).controllerMoves a d := by
  intro d y u hfit
  have hyr : y.counting.reference = .referenced := hr
  have hin : ¬ (y.config.kind = .linear ∧ inPositionRange y.formed = false) := fun ⟨hk, hout⟩ => by
    rw [inPositionRange_iff.2 (hfit hk)] at hout
    cases hout
  have hedge := State.countEdge_some h order
  dsimp only at hedge
  rw [hyr] at hedge
  exact hedge.trans (if_neg hin)

/-- A counted edge of a REFERENCED LINEAR axis that would leave the position range raises OVERRANGE. -/
theorem State.countEdge_overrange {s : State} {a : AxisId} {l : EncoderLevels} {leads : Bool}
    (h : leadsOf (s.axis a).pins.encoder l = some leads) (hr : (s.axis a).counting.reference = .referenced)
    (hk : (s.axis a).config.kind = .linear) (order : List Block) :
    let y := (s.axis a).counted l ((s.axis a).config.countSense.direction leads)
    y.formed < -67108863 ∨ 67108863 < y.formed →
    s.countEdge a l order = (s.setAxis a y).raise a .overrange := by
  intro y hout
  have hyr : y.counting.reference = .referenced := hr
  have hnot : inPositionRange y.formed = false := Bool.eq_false_iff.2 (mt inPositionRange_iff.1 (by omega))
  have hedge := State.countEdge_some h order
  dsimp only at hedge
  rw [hyr] at hedge
  exact hedge.trans (if_pos ⟨hk, hnot⟩)

/-- Settles O32: `State.countEdge_moves` with the frame of both blocks (`State.MovedFrom`), the sum of R8, and
`State.countEdge_overrange`. -/
theorem edgesOfReferencedAxesMoveThePosition : Obligations.EdgesOfReferencedAxesMoveThePosition := by
  refine ⟨fun s a l order leads => ?_, Axis.formed_eq, fun x l d => Axis.counted_formed_linear l d,
    fun x l d hk _ => Axis.counted_formed_rotary l d hk, fun s a l order leads => ?_⟩
  · intro x d y u moved hl hr hfit
    have hu : s.MovedFrom a y u := State.MovedFrom.setAxis s a y
    have hmoved (v : State) : moved v = v.controllerMoves a d := rfl
    have hfrom : s.MovedFrom a y (if Block.before (.axisController a) .windowMonitor order then (moved u).windowsOf a
        else moved (u.windowsOf a)) := by
      simp only [hmoved]
      split
      · exact (hu.controllerMoves d).windowsOf
      · exact hu.windowsOf.controllerMoves d
    refine ⟨if Block.before (.axisController a) .windowMonitor order then (moved u).windowsOf a else moved (u.windowsOf a),
      congrArg Host.Outcome.next (State.countEdge_moves hl hr order hfit), rfl, fun hm => ?_, hfrom.counting,
      hfrom.position.trans (Axis.position_referenced hr), ?_, hfrom.hostValues, hfrom.config, hfrom.queue, hfrom.log,
      hfrom.faultClaims, hfrom.others, hfrom.tables, hfrom.link, hfrom.timebase, hfrom.micros⟩
    · have hstand : ∀ o, (u.axis a).motion ≠ .moving o := by
        rw [State.setAxis_axis, if_pos rfl, Axis.counted_standing hm]
        exact hm
      have hstand' : ∀ o, ((u.windowsOf a).axis a).motion ≠ .moving o := by
        obtain ⟨-, -, -, -, -, hmotion⟩ := (u.windowsOf_same a a).controlled
        rw [hmotion]
        exact hstand
      rw [hmoved, hmoved, State.controllerMoves_standing hstand, State.controllerMoves_standing hstand', ite_self]
    · split
      · rw [State.windowsOf_windows, hmoved,
          retest_congr (hu.controllerMoves d).position (hu.controllerMoves d).config]
        simp [State.controllerMoves, u]
      · simp [hmoved, State.controllerMoves, u]
  · intro x y record hl hr hk hout hok
    refine congrArg Host.Outcome.next ((State.countEdge_overrange hl hr hk order hout).trans ?_)
    rw [State.setAxis_raise (y := y) hok.guards hok.sound rfl rfl rfl .overrange, ← Axis.recordFault_dropped]
    rfl

end Sys2Proof.Machine
end

section
namespace Sys2Proof.Machine

/-! ### Index marks and the line check -/

/-- Raising a fault leaves the motion state: the claim acts on it later. -/
theorem State.raise_motion (s : State) (a : AxisId) (k : FaultKind) :
    ((s.raise a k).axis a).motion = (s.axis a).motion := by
  have hlose (t : State) : ((t.loseReference a).axis a).motion = (t.axis a).motion := by
    unfold State.loseReference
    split
    · rfl
    · obtain ⟨-, -, -, -, -, hmotion⟩ := (State.windowsOf_same _ a a).controlled
      rw [hmotion]
      simp
  unfold State.raise
  rw [State.modifyAxis_axis, if_pos rfl, hlose, State.take_axis, if_pos rfl, (Axis.recordFault_fst ..).1]

/-- The index check leaves the motion state. -/
theorem State.indexCheck_motion (s : State) (a : AxisId) : ((s.indexCheck a).axis a).motion = (s.axis a).motion := by
  unfold State.indexCheck
  dsimp only
  split
  · rfl
  · split
    · simp
    · split
      · simp
      · exact s.raise_motion a .slip

/-- An index mark on an axis that is not homing is for the index check alone (R7). -/
theorem State.homingMark_none {s : State} {a : AxisId} (h : (s.axis a).motion.isHoming = false) (dir : Option Dir)
    (order : List Block) : s.homingMark a dir order = s := by
  unfold State.homingMark
  cases hm : (s.axis a).motion with
  | homing r => rw [hm] at h; cases h
  | idle | held | waiting | moving | jogging | faulted => rfl

theorem State.indexMark_checks {s : State} {a : AxisId} (h : (s.axis a).motion.isHoming = false) (order : List Block) :
    exec (.indexMark a none order) s = .next (s.indexCheck a) :=
  congrArg Host.Outcome.next (State.homingMark_none (by rw [State.indexCheck_motion]; exact h) _ order)

/-- The index check of a REFERENCED axis, with the check on and a baseline (R13). -/
theorem State.indexCheck_baseline {s : State} {a : AxisId} {b : Count} (hn : (s.axis a).config.indexSpacing ≠ 0)
    (hr : (s.axis a).counting.reference = .referenced) (hb : (s.axis a).counting.baseline = some b) :
    s.indexCheck a =
      if (s.axis a).config.passesIndex ((s.axis a).counting.raw - b).toInt then
        s.setAxis a { s.axis a with
          counting := { (s.axis a).counting with baseline := some (s.axis a).counting.raw } }
      else s.raise a .slip := by
  unfold State.indexCheck
  dsimp only
  rw [if_neg (not_or.2 ⟨hn, by rw [hr]; decide⟩), hb]

/-- The first mark of a REFERENCED axis with the check on sets the baseline (R13). -/
theorem State.indexCheck_first {s : State} {a : AxisId} (hn : (s.axis a).config.indexSpacing ≠ 0)
    (hr : (s.axis a).counting.reference = .referenced) (hb : (s.axis a).counting.baseline = none) :
    s.indexCheck a =
      s.setAxis a { s.axis a with
        counting := { (s.axis a).counting with baseline := some (s.axis a).counting.raw } } := by
  unfold State.indexCheck
  dsimp only
  rw [if_neg (not_or.2 ⟨hn, by rw [hr]; decide⟩), hb]

theorem AxisConfig.passesIndex_iff {c : AxisConfig} {d : Int} :
    c.passesIndex d = true ↔
      (-(c.indexTol : Int) ≤ d - c.indexSpacing ∧ d - c.indexSpacing ≤ c.indexTol) ∨
        (-(c.indexTol : Int) ≤ d + c.indexSpacing ∧ d + c.indexSpacing ≤ c.indexTol) ∨
        (-(c.indexTol : Int) ≤ d ∧ d ≤ c.indexTol) := by
  simp only [AxisConfig.passesIndex, Bool.or_eq_true, within_iff, or_assoc]

/-- A fault raised by an event that has changed nothing of the axis before. -/
theorem State.raise_at {s : State} (h : s.MonitorOk) (a : AxisId) (k : FaultKind) :
    s.raise a k =
      (s.lost a { s.axis a with
        counting := (Axis.recordFault a s.timebase k (s.axis a)).1.counting.dropped
        faultClaims := (s.axis a).faultClaims ++ [k] }).offers (Axis.recordFault a s.timebase k (s.axis a)).2 :=
  State.raise_eq h.guards h.sound k

/-- The 1 ms of the line check has passed without LINE-CHECK: the condition alone (R12). -/
theorem State.lineConditionArises_unchecked {s : State} {a : AxisId} (h : (s.axis a).config.lineCheck = false) :
    s.lineConditionArises a =
      s.setAxis a { s.axis a with
        counting := { (s.axis a).counting with lineFault := true, lineTimer := none } } := by
  unfold State.lineConditionArises
  rw [h]
  rfl

/-- With LINE-CHECK 1 the condition raises LINE, and is marked as having raised it (R12). -/
theorem State.lineConditionArises_checked {s : State} {a : AxisId} (h : (s.axis a).config.lineCheck = true)
    (hg : Table.wf s.monitor.guards) (hw : s.monitor.Sound) :
    let y := s.axis a
    s.lineConditionArises a =
      (s.lost a { y with
        counting :=
          { (Axis.recordFault a s.timebase .line y).1.counting.dropped with
            lineFault := true, lineRaised := true, lineTimer := none }
        faultClaims := y.faultClaims ++ [.line] }).offers (Axis.recordFault a s.timebase .line y).2 := by
  intro y
  let z : Axis := { y with counting := { y.counting with lineFault := true, lineRaised := true, lineTimer := none } }
  have hraise : s.lineConditionArises a = (s.setAxis a z).raise a .line := by
    unfold State.lineConditionArises State.raiseLine State.modifyAxis
    rw [h, if_pos rfl, State.setAxis_setAxis, State.setAxis_axis, if_pos rfl]
  rw [hraise, Axis.recordFault_dropped]
  exact State.setAxis_raise (x := y) (y := z) hg hw rfl rfl rfl .line

/-- Settles O33: the branches of `State.indexCheck`, of `Axis.pairsChange` and of `State.lineConditionArises`. -/
theorem indexAndLineChecksRaiseFaults : Obligations.IndexAndLineChecksRaiseFaults := by
  refine ⟨fun s a order => ?_, fun s a m => ?_⟩
  · intro x n tol
    refine ⟨fun hm => ?_, fun l => ⟨s.countEdge a l order, rfl, fun hm => ?_⟩⟩
    · rw [State.indexMark_checks hm]
      refine ⟨fun hoff => ?_, fun hn hr hb => ?_, fun b hn hr hb => ?_⟩
      · exact congrArg Host.Outcome.next (if_pos hoff)
      · rw [State.indexCheck_first hn hr hb]
      · intro d passes
        rw [State.indexCheck_baseline hn hr hb]
        refine ⟨fun hp => ?_, fun hp hok => ?_⟩
        · rw [if_pos (AxisConfig.passesIndex_iff.2 hp)]
        · rw [if_neg (mt AxisConfig.passesIndex_iff.1 hp), State.raise_at hok]
    · have hchecked : (((s.countEdge a l order).indexCheck a).axis a).motion.isHoming = false := by
        rw [State.indexCheck_motion]
        exact hm
      rw [State.indexMark_checks hm]
      exact congrArg Host.Outcome.next (State.homingMark_none hchecked _ order)
  · intro x
    refine ⟨fun hm => ?_, fun hm hx => ?_, fun hm hx => ?_, fun late t ht hrun => ?_⟩
    · refine congrArg (fun y => Host.Outcome.next (s.setAxis a y)) ?_
      unfold Axis.pairsChange
      rw [if_pos (PairMismatch.any_iff.2 hm)]
    · refine congrArg (fun y => Host.Outcome.next (s.setAxis a y)) ?_
      unfold Axis.pairsChange
      rw [if_neg (mt PairMismatch.any_iff.1 hm), if_pos (PairMismatch.any_iff.2 hx)]
      rfl
    · refine congrArg (fun y => Host.Outcome.next (s.setAxis a y)) ?_
      unfold Axis.pairsChange
      rw [if_neg (mt PairMismatch.any_iff.1 hm), if_neg (mt PairMismatch.any_iff.1 hx)]
    · intro v y
      have hexec : exec (.lineTimerExpiry a late) s = .next (v.lineConditionArises a) := by
        show Host.Outcome.next (s.expire (s.axis a).counting.lineTimer late _) = _
        rw [ht, State.expire_some hrun]
      have hconfig : y.config = x.config := by
        simp only [y, v, State.runTo, State.advance_axis]
        rfl
      rw [hexec]
      refine ⟨fun hcheck => ?_, fun hcheck hok => ?_⟩
      · rw [State.lineConditionArises_unchecked ((congrArg AxisConfig.lineCheck hconfig).trans hcheck)]
      · rw [State.lineConditionArises_checked ((congrArg AxisConfig.lineCheck hconfig).trans hcheck) hok.guards
          hok.sound]

end Sys2Proof.Machine
end

section
namespace Sys2Proof.Machine

/-! ### SET-AXIS -/

theorem State.modifyAxis_setLink (s : State) (l : LinkPort) (a : AxisId) (f : Axis → Axis) :
    (s.setLink l).modifyAxis a f = (s.modifyAxis a f).setLink l := rfl

theorem State.take_setLink (s : State) (l : LinkPort) (a : AxisId) (f : Axis → Taken) :
    (s.setLink l).take a f = (s.take a f).setLink l := by
  unfold State.take
  rw [State.setLink_axis]
  exact State.offers_setLink (s.setAxis a (f (s.axis a)).1) l _

/-- A loss of reference leaves the Link Port out. -/
theorem State.loseReference_setLink (s : State) (l : LinkPort) (a : AxisId) :
    (s.setLink l).loseReference a = (s.loseReference a).setLink l := by
  unfold State.loseReference
  rw [State.setLink_axis]
  split
  · rfl
  · rw [State.modifyAxis_setLink, State.windowsOf_setLink]

/-- Raising a fault leaves the Link Port out. -/
theorem State.raise_setLink (s : State) (l : LinkPort) (a : AxisId) (k : FaultKind) :
    (s.setLink l).raise a k = (s.raise a k).setLink l := by
  unfold State.raise
  rw [State.take_setLink, State.loseReference_setLink, State.modifyAxis_setLink, State.setLink_timebase]

theorem State.raiseLine_setLink (s : State) (l : LinkPort) (a : AxisId) :
    (s.setLink l).raiseLine a = (s.raiseLine a).setLink l := by
  unfold State.raiseLine
  rw [State.modifyAxis_setLink, State.raise_setLink]

/-- A new configuration leaves the Link Port out. -/
theorem State.configure_setLink (s : State) (l : LinkPort) (a : AxisId) (c : AxisConfig) :
    (s.setLink l).configure a c = (s.configure a c).setLink l := by
  unfold State.configure
  simp only [State.setLink_axis, State.modifyAxis_setLink, State.loseReference_setLink]
  split <;> split <;> simp only [State.raiseLine_setLink]

theorem State.loseReference_link (s : State) (a : AxisId) : (s.loseReference a).link = s.link := by
  unfold State.loseReference
  split <;> simp

theorem State.raise_link (s : State) (a : AxisId) (k : FaultKind) : (s.raise a k).link = s.link := by
  simp [State.raise, State.loseReference_link]

theorem State.configure_link (s : State) (a : AxisId) (c : AxisConfig) : (s.configure a c).link = s.link := by
  unfold State.configure State.raiseLine
  dsimp only
  split <;> split <;> simp [State.raise_link, State.loseReference_link]

/-- An accepted SET-AXIS: the configuration with its fields, and the REFERENCE that is left. -/
theorem Serves.setAxis {s : State} {r : Request} {fs : List Field} (h : Serves s .setAxis r fs)
    (hx : (s.axis (fieldAxis fs)).configurable = true) :
    let t := s.configure (fieldAxis fs) ((s.axis (fieldAxis fs)).config.with fs)
    exec .setAxis s =
      .next (t.answered r ⟨.ok, [(.reference, (t.axis (fieldAxis fs)).counting.reference.code)], [], []⟩) := by
  refine congrArg Host.Outcome.next (h.executes ?_ (State.configure_link ..))
  unfold setAxisRule
  dsimp only
  rw [State.setLink_axis, hx, if_pos rfl, State.configure_setLink]
  rfl

/-- The axis with new values stored, field by field (R3, R112). -/
theorem Axis.configure_eq (c : AxisConfig) (x : Axis) :
    x.configure c =
      { x with
        config := c
        lockout :=
          if c.reversalGap = x.config.reversalGap then x.lockout
          else x.lockout.map (fun r =>
            match r.timer with
            | none => r
            | some t =>
              let since := r.spent + t.elapsed
              { r with timer := some ⟨c.reversalGap, min since (1000 * c.reversalGap)⟩
                       spent := since - 1000 * c.reversalGap })
        counting :=
          { x.counting with
            baseline :=
              if c.indexSpacing = x.config.indexSpacing ∧ c.indexTol = x.config.indexTol then x.counting.baseline
              else none } } := by
  unfold Axis.configure
  by_cases h : c.reversalGap = x.config.reversalGap
  · simp only [if_pos h]
  · simp only [if_neg h]
    rfl

theorem AxisConfig.dropsReference_iff {old new : AxisConfig} :
    old.dropsReference new = true ↔
      new.kind ≠ old.kind ∨ new.modulus ≠ old.modulus ∨ new.countSense ≠ old.countSense := by
  simp only [AxisConfig.dropsReference, Bool.or_eq_true, decide_eq_true_eq, or_assoc, ne_comm]

theorem Axis.checkRaises_iff {new : AxisConfig} {x : Axis} :
    x.checkRaises new = true ↔
      x.config.lineCheck = false ∧ new.lineCheck = true ∧ x.counting.lineFault = true ∧ x.counting.lineRaised = false := by
  simp only [Axis.checkRaises, Bool.and_eq_true, Bool.not_eq_true', and_assoc]

/-- A configuration that neither drops the reference nor raises LINE is stored, and that is all. -/
theorem State.configure_stores {s : State} {a : AxisId} {c : AxisConfig}
    (hd : (s.axis a).config.dropsReference c = false) (hr : (s.axis a).checkRaises c = false) :
    s.configure a c = s.setAxis a ((s.axis a).configure c) := by
  unfold State.configure
  dsimp only
  rw [hd, hr]
  rfl

/-- A configuration that drops the reference and raises no LINE. -/
theorem State.configure_drops {s : State} {a : AxisId} {c : AxisConfig} (hok : s.MonitorOk)
    (hd : (s.axis a).config.dropsReference c = true) (hr : (s.axis a).checkRaises c = false) :
    s.configure a c =
      s.lost a { (s.axis a).configure c with counting := ((s.axis a).configure c).counting.dropped } := by
  have hlose := State.loseReference_eq (s := s.setAxis a ((s.axis a).configure c)) (a := a) hok.guards hok.sound
  rw [State.setAxis_axis, if_pos rfl, State.setAxis_lost (by rw [Axis.configure_eq])] at hlose
  unfold State.configure
  dsimp only
  rw [hd, hr]
  exact hlose

/-- LINE raised on an axis that an event has left as `y`. -/
theorem State.setAxis_raiseLine (s : State) (a : AxisId) (y : Axis) :
    (s.setAxis a y).raiseLine a =
      (s.setAxis a { y with counting := { y.counting with lineRaised := true } }).raise a .line := by
  unfold State.raiseLine State.modifyAxis
  rw [State.setAxis_setAxis, State.setAxis_axis, if_pos rfl]

/-- The same behind a loss of reference. -/
theorem State.lost_raiseLine (s : State) (a : AxisId) (y : Axis) :
    (s.lost a y).raiseLine a =
      (s.lost a { y with counting := { y.counting with lineRaised := true } }).raise a .line := by
  unfold State.raiseLine State.modifyAxis
  rw [State.lost_setAxis, State.lost_axis, if_pos rfl]

/-- A configuration that raises LINE loses the reference in any case, once. -/
theorem State.configure_raises {s : State} {a : AxisId} {c : AxisConfig} (hok : s.MonitorOk)
    (hr : (s.axis a).checkRaises c = true) :
    let y := (s.axis a).configure c
    s.configure a c =
      (s.lost a { y with
        counting :=
          { y.counting.dropped with
            lineRaised := true
            fault := (Axis.recordFault a s.timebase .line (s.axis a)).1.counting.fault }
        faultClaims := y.faultClaims ++ [.line] }).offers (Axis.recordFault a s.timebase .line (s.axis a)).2 := by
  intro y
  have hfault : y.counting.fault = (s.axis a).counting.fault := by simp only [y, Axis.configure_eq]
  have hraw : y.counting.raw = (s.axis a).counting.raw := by simp only [y, Axis.configure_eq]
  have href : y.counting.reference = (s.axis a).counting.reference := by simp only [y, Axis.configure_eq]
  have hlose := State.loseReference_eq (s := s.setAxis a y) (a := a) hok.guards hok.sound
  rw [State.setAxis_axis, if_pos rfl, State.setAxis_lost href] at hlose
  have hmodify : s.modifyAxis a (Axis.configure c) = s.setAxis a y := rfl
  unfold State.configure
  dsimp only
  rw [hr, if_pos rfl, hmodify]
  split
  · let z : Axis := { y with counting := { y.counting.dropped with lineRaised := true } }
    rw [hlose, State.lost_raiseLine]
    refine (State.lost_raise (x := s.axis a) (y := z) hok.guards hok.sound rfl hfault hraw .line).trans ?_
    rw [CountingUnit.dropped_unreferenced (show z.counting.reference = .unreferenced from rfl)]
  · let z : Axis := { y with counting := { y.counting with lineRaised := true } }
    rw [State.setAxis_raiseLine]
    exact State.setAxis_raise (x := s.axis a) (y := z) hok.guards hok.sound href hfault hraw .line

/-- Settles O26: SET-AXIS is refused on an axis that is not configurable, and stores, drops or raises otherwise. -/
theorem setAxisStoresItsFields : Obligations.SetAxisStoresItsFields := by
  rintro s r fs a h rfl
  intro x c d raises drops kept raised
  have hkept : kept = x.configure d := (Axis.configure_eq d x).symm
  refine ⟨fun hbad => ?_, fun hm hq => ?_⟩
  · have hnot : x.configurable = false := Bool.eq_false_iff.2 (mt Axis.configurable_iff.1 (by tauto))
    refine congrArg Host.Outcome.next (h.executes (t := s) ?_ rfl)
    unfold setAxisRule
    dsimp only
    rw [State.setLink_axis, hnot]
    rfl
  · have hexec {t : State} (ht : s.configure (fieldAxis fs) d = t) :
        exec .setAxis s =
          .next (t.answered r ⟨.ok, [(.reference, (t.axis (fieldAxis fs)).counting.reference.code)], [], []⟩) := by
      subst ht
      exact h.setAxis (Axis.configurable_iff.2 ⟨hm, hq⟩)
    refine ⟨fun hd hr => ?_, fun hd hr hok => ?_, fun hr hok => ?_⟩
    · refine (hexec (State.configure_stores (Bool.eq_false_iff.2 (mt AxisConfig.dropsReference_iff.1 hd))
        (Bool.eq_false_iff.2 (mt Axis.checkRaises_iff.1 hr)))).trans ?_
      rw [State.setAxis_axis, if_pos rfl, hkept, Axis.configure_eq]
    · refine (hexec (State.configure_drops hok (AxisConfig.dropsReference_iff.2 hd)
        (Bool.eq_false_iff.2 (mt Axis.checkRaises_iff.1 hr)))).trans ?_
      rw [State.lost_axis, if_pos rfl, hkept]
      rfl
    · refine (hexec (State.configure_raises hok (Axis.checkRaises_iff.2 hr))).trans ?_
      rw [State.offers_axis, State.lost_axis, if_pos rfl, Axis.configure_eq]
      rfl

end Sys2Proof.Machine
end

section
namespace Sys2Proof.Machine

/-! ### TEACH and SHIFT -/

/-- The datum check of R22 and R36, spelled out per KIND. -/
theorem Axis.datumFits_iff {datum : Int} {x : Axis} :
    x.datumFits datum = true ↔
      (x.config.kind = .linear → -67108863 ≤ datum + x.counting.shift ∧ datum + x.counting.shift ≤ 67108863) ∧
        (x.config.kind = .rotary → 0 ≤ datum ∧ datum ≤ x.config.modulus - 1) := by
  unfold Axis.datumFits
  cases x.config.kind with
  | linear => simpa using inPositionRange_iff
  | rotary => exact within_iff.trans (by simp)

/-- Check 2 of SHIFT (R38), spelled out. -/
theorem Axis.shiftFits_iff {v : Int} {x : Axis} :
    x.shiftFits v = true ↔
      (x.config.kind = .linear → ∀ p, x.position = some p →
        -67108863 ≤ p + (v - x.counting.shift) ∧ p + (v - x.counting.shift) ≤ 67108863) := by
  unfold Axis.shiftFits
  cases x.position <;> cases x.config.kind <;> simp [inPositionRange_iff]

/-- The windows of an axis, tested after an event that has left it at a position. -/
theorem State.windowsOf_at (s : State) (a : AxisId) {y : Axis} {p : Int} (hp : y.position = some p) :
    ((s.setAxis a y).windowsOf a).monitor.windows =
      s.monitor.windows.map (fun e =>
        if e.2.axis = a then
          (e.1, { e.2 with occupancy := if e.2.contains y.config.kind p then .occupied else .vacant })
        else e) := by
  have htest : ∀ w : Window, w.test y = if w.contains y.config.kind p then .occupied else .vacant := fun w => by
    unfold Window.test
    rw [hp]
  rw [State.windowsOf_windows, State.setAxis_axis, if_pos rfl, State.setAxis_monitor]
  unfold retest
  simp only [htest]

/-- A base set for a datum makes the sum of raw count and base that datum. -/
theorem Count.sum_of_datum (raw : Count) {datum : Int} (h : -67108863 ≤ datum ∧ datum ≤ 67108863) :
    (raw + (BitVec.ofInt 32 datum - raw)).toInt = datum := by
  rw [BitVec.add_comm, BitVec.sub_add_cancel, BitVec.toInt_ofInt]
  exact Int.bmod_eq_of_le (by omega) (by omega)

/-- The position TEACH reports. -/
theorem Axis.datumPosition_eq (x : Axis) (datum : Int) :
    x.datumPosition datum =
      if x.config.kind = .rotary then (datum + x.counting.shift) % x.config.modulus else datum + x.counting.shift := by
  unfold Axis.datumPosition Axis.reduce
  cases x.config.kind <;> rfl

/-- A gain of reference at the present raw count leaves the axis at the datum plus the shift. -/
theorem Axis.position_gain (x : Axis) {datum : Int} (h : -67108863 ≤ datum ∧ datum ≤ 67108863) :
    (x.gain datum x.counting.raw false).position = some (x.datumPosition datum) := by
  have hsum : ((x.gain datum x.counting.raw false).counting.raw +
      (x.gain datum x.counting.raw false).counting.base).toInt = datum := Count.sum_of_datum _ h
  rw [Axis.position_referenced rfl, Axis.formed_eq, Axis.datumPosition_eq, hsum]
  rfl

/-- TEACH leaves the Link Port out. -/
theorem State.teach_setLink (s : State) (l : LinkPort) (a : AxisId) (datum : Int) :
    (s.setLink l).teach a datum = (s.teach a datum).setLink l := by
  unfold State.teach
  rw [State.modifyAxis_setLink, State.windowsOf_setLink]

/-- The axis with another shift stored. -/
def Axis.shifted (v : Int) (x : Axis) : Axis := { x with counting := { x.counting with shift := v } }

/-- A SHIFT that stores the value, and that is all: on an UNREFERENCED axis, or with the shift unchanged. -/
theorem State.shift_stores {s : State} {a : AxisId} {v : Int}
    (h : ¬ ((s.axis a).counting.reference = .referenced ∧ v ≠ (s.axis a).counting.shift)) :
    s.shift a v = s.setAxis a ((s.axis a).shifted v) := if_neg h

/-- A SHIFT that moves the position. -/
theorem State.shift_moves {s : State} {a : AxisId} {v : Int} (hr : (s.axis a).counting.reference = .referenced)
    (hv : v ≠ (s.axis a).counting.shift) : s.shift a v = (s.setAxis a ((s.axis a).shifted v)).windowsOf a :=
  if_pos ⟨hr, hv⟩

/-- SHIFT leaves the Link Port out. -/
theorem State.shift_setLink (s : State) (l : LinkPort) (a : AxisId) (v : Int) :
    (s.setLink l).shift a v = (s.shift a v).setLink l := by
  by_cases h : (s.axis a).counting.reference = .referenced ∧ v ≠ (s.axis a).counting.shift
  · rw [State.shift_moves h.1 h.2, State.shift_moves (s := s.setLink l) h.1 h.2, ← State.windowsOf_setLink]
    rfl
  · rw [State.shift_stores h, State.shift_stores (s := s.setLink l) h]
    rfl

theorem State.shift_link (s : State) (a : AxisId) (v : Int) : (s.shift a v).link = s.link := by
  unfold State.shift
  dsimp only
  split <;> simp

/-- The DATUM a TEACH carries lies in the position range (table 11-8). -/
theorem Serves.teach_datum {s : State} {r : Request} {fs : List Field} (h : Serves s .teach r fs) :
    -67108863 ≤ fieldInt fs .datum ∧ fieldInt fs .datum ≤ 67108863 := by
  obtain ⟨v, -, hv, hr⟩ := h.required (f := .datum) (by decide)
  rw [hv]
  exact within_iff.1 hr

/-- TEACH by its checks in order (R36, R37). -/
theorem Serves.teach {s : State} {r : Request} {fs : List Field} (h : Serves s .teach r fs) :
    let x := s.axis (fieldAxis fs)
    let datum := fieldInt fs .datum
    (x.datumFits datum = false → exec .teach s = .next (s.answered r ⟨.badValue, [(.detail, 67)], [], []⟩)) ∧
    (x.datumFits datum = true → x.motion.isFaulted = true →
      exec .teach s = .next (s.answered r ⟨.faulted, [], [], []⟩)) ∧
    (x.datumFits datum = true → x.motion.isFaulted = false → x.motion.inMotion = true →
      exec .teach s = .next (s.answered r ⟨.wrongState, [], [], []⟩)) ∧
    (x.datumFits datum = true → x.motion.isFaulted = false → x.motion.inMotion = false →
      exec .teach s =
        .next ((s.teach (fieldAxis fs) datum).answered r ⟨.ok, [(.position, x.datumPosition datum)], [], []⟩)) := by
  intro x datum
  refine ⟨fun hd => ?_, fun hd hf => ?_, fun hd hf hm => ?_, fun hd hf hm => ?_⟩
  all_goals
    refine congrArg Host.Outcome.next (h.executes (own := teachRule) ?_ (by simp [State.teach]))
    unfold teachRule
    dsimp only
    rw [State.setLink_axis]
  · rw [if_pos hd]; rfl
  · rw [if_neg (by rw [hd]; decide), if_pos hf]; rfl
  · rw [if_neg (by rw [hd]; decide), if_neg (by rw [hf]; decide), if_pos hm]; rfl
  · rw [if_neg (by rw [hd]; decide), if_neg (by rw [hf]; decide), if_neg (by rw [hm]; decide), State.teach_setLink]
    rfl

theorem State.shift_position (s : State) (a : AxisId) (v : Int) :
    ((s.shift a v).axis a).position = ((s.axis a).shifted v).position := by
  by_cases h : (s.axis a).counting.reference = .referenced ∧ v ≠ (s.axis a).counting.shift
  · have hm := State.MovedFrom.setAxis s a ((s.axis a).shifted v)
    rw [State.shift_moves h.1 h.2, hm.windowsOf.position]
  · rw [State.shift_stores h, State.setAxis_axis, if_pos rfl]

theorem Axis.referenced_of_position {x : Axis} {p : Int} (h : x.position = some p) :
    x.counting.reference = .referenced := by
  unfold Axis.position at h
  cases hr : x.counting.reference with
  | unreferenced => rw [hr] at h; cases h
  | referenced => rfl

theorem Axis.position_unreferenced {x : Axis} (h : x.counting.reference = .unreferenced) : x.position = none := by
  unfold Axis.position
  rw [h]

/-- A new shift moves the position of a REFERENCED axis by the change (R38). -/
theorem Axis.position_shifted {x : Axis} {p : Int} (h : x.position = some p) (v : Int) :
    (x.shifted v).position =
      some (if x.config.kind = .rotary then (p + (v - x.counting.shift)) % x.config.modulus
        else p + (v - x.counting.shift)) := by
  have hr : x.counting.reference = .referenced := Axis.referenced_of_position h
  have hp : x.formed = p := Option.some.inj ((Axis.position_referenced hr).symm.trans h)
  rw [Axis.position_referenced (x := x.shifted v) hr, ← hp, Axis.formed_eq, Axis.formed_eq]
  show some (if x.config.kind = .rotary then ((x.counting.raw + x.counting.base).toInt + v) % x.config.modulus
    else (x.counting.raw + x.counting.base).toInt + v) = _
  split
  · rw [Int.emod_add_emod]
    ring_nf
  · ring_nf

/-- The shift that a SHIFT asks for (R38). -/
theorem Axis.newShift_eq (m v : Int) (x : Axis) :
    x.newShift (ShiftMode.ofCode m) v = if m = 0 then v else x.counting.shift + v := by
  unfold Axis.newShift ShiftMode.ofCode
  by_cases h : m = 0
  · rw [if_pos h, if_pos h]
  · rw [if_neg h, if_neg h]

/-- SHIFT by its checks in order (R38, R39). -/
theorem Serves.shift {s : State} {r : Request} {fs : List Field} (h : Serves s .shift r fs) {v : Int}
    (hv : (s.axis (fieldAxis fs)).newShift (ShiftMode.ofCode (fieldInt fs .shiftMode)) (fieldInt fs .shift) = v) :
    let x := s.axis (fieldAxis fs)
    let fits := within (-Config.maxShift) Config.maxShift v = true ∧ x.shiftFits v = true
    (¬ fits → exec .shift s = .next (s.answered r ⟨.badValue, [(.detail, 57)], [], []⟩)) ∧
    (fits → x.motion.inMotion = true → exec .shift s = .next (s.answered r ⟨.wrongState, [], [], []⟩)) ∧
    (fits → x.motion.inMotion = false →
      exec .shift s =
        .next ((s.shift (fieldAxis fs) v).answered r
          ⟨.ok, optionalField .position (x.shifted v).position ++ [(.shift, v)], [], []⟩)) := by
  intro x fits
  have hexec {t : State} {ans : Answer}
      (ht : shiftRule fs (s.setLink s.link.popIntake) = (ans, t.setLink s.link.popIntake)) (hl : t.link = s.link) :
      exec .shift s = .next (t.answered r ans) := congrArg Host.Outcome.next (h.executes ht hl)
  unfold shiftRule at hexec
  dsimp only at hexec
  rw [State.setLink_axis, hv] at hexec
  refine ⟨fun hbad => hexec ?_ rfl, fun ⟨hw, hf⟩ hm => hexec ?_ rfl, fun ⟨hw, hf⟩ hm => hexec ?_ (State.shift_link ..)⟩
  · by_cases hw : within (-Config.maxShift) Config.maxShift v = true
    · rw [if_neg (by rw [hw]; decide), if_pos (Bool.eq_false_iff.2 fun hf => hbad ⟨hw, hf⟩)]
      rfl
    · rw [if_pos (Bool.eq_false_iff.2 hw)]
      rfl
  · rw [if_neg (by rw [hw]; decide), if_neg (by rw [hf]; decide), if_pos hm]
    rfl
  · rw [if_neg (by rw [hw]; decide), if_neg (by rw [hf]; decide), if_neg (by rw [hm]; decide), State.shift_setLink,
      State.setLink_axis, State.shift_position]
    rfl

/-- Settles O36: TEACH makes the present position the datum plus the shift; SHIFT moves it by the change of the shift. -/
theorem teachAndShiftSetThePosition : Obligations.TeachAndShiftSetThePosition := by
  refine ⟨?_, ?_⟩
  · rintro s r fs a h rfl
    intro x datum fits p y
    have hdatum : -67108863 ≤ datum ∧ datum ≤ 67108863 := h.teach_datum
    have hfits : x.datumFits datum = true ↔ fits := Axis.datumFits_iff
    obtain ⟨hbad, hfaulted, hmoving, hok⟩ := h.teach
    have hp : y.position = some p := (Axis.position_gain x hdatum).trans (congrArg some (Axis.datumPosition_eq x datum))
    refine ⟨fun hn => hbad (Bool.eq_false_iff.2 (mt hfits.1 hn)),
      fun hf hm => hfaulted (hfits.2 hf) (Motion.isFaulted_iff.2 hm),
      fun hf hm => hmoving (hfits.2 hf) ?_ hm, fun hf hm => ⟨?_, hp, State.windowsOf_at s _ hp⟩⟩
    · refine Bool.eq_false_iff.2 fun hfault => ?_
      have hm' : x.motion.inMotion = true := hm
      rw [Motion.isFaulted_iff.1 hfault] at hm'
      cases hm'
    · have hstill : x.motion.isFaulted = false ∧ x.motion.inMotion = false := by
        rcases hm with hm | hm | hm <;> rw [hm] <;> exact ⟨rfl, rfl⟩
      exact (hok (hfits.2 hf) hstill.1 hstill.2).trans (by rw [Axis.datumPosition_eq]; rfl)
  · rintro s r fs a v h rfl
    intro x hv fits y
    obtain ⟨hbad, hmoving, hok⟩ := h.shift ((Axis.newShift_eq ..).trans hv.symm)
    have hfits : within (-Config.maxShift) Config.maxShift v = true ∧ x.shiftFits v = true ↔ fits :=
      (and_congr within_iff Axis.shiftFits_iff).trans and_assoc
    refine ⟨fun hn => hbad (mt hfits.1 hn), fun hf hm => hmoving (hfits.2 hf) hm, fun hf hm => ?_⟩
    have hexec := hok (hfits.2 hf) hm
    refine ⟨fun hu => hexec.trans ?_, ?_⟩
    · rw [State.shift_stores (by rw [hu]; simp), Axis.position_unreferenced (x := x.shifted v) hu]
      rfl
    · rintro p q hp rfl
      have hq := Axis.position_shifted hp v
      rw [hq] at hexec
      refine ⟨hq, fun hsame => hexec.trans ?_, fun hchange => ⟨hexec.trans ?_, State.windowsOf_at s _ hq⟩⟩
      · have hself : x.shifted v = x := by rw [hsame]; rfl
        rw [State.shift_stores (fun hne => hne.2 hsame), hself, State.setAxis_self]
        rfl
      · rw [State.shift_moves (Axis.referenced_of_position hp) hchange]
        rfl

end Sys2Proof.Machine
end

section
namespace Sys2Proof.Machine

/-! ### Windows and guards -/

theorem Window.contains_linear (w : Window) (p : Int) : w.contains .linear p = true ↔ w.lower ≤ p ∧ p ≤ w.upper :=
  within_iff

/-- A window of a ROTARY axis that does not wrap contains what lies between its bounds (R125). -/
theorem Window.contains_rotary {w : Window} (h : w.lower ≤ w.upper) (p : Int) :
    w.contains .rotary p = true ↔ w.lower ≤ p ∧ p ≤ w.upper := by
  unfold Window.contains
  rw [if_neg (by omega)]
  exact within_iff

/-- A window of a ROTARY axis whose bounds wrap contains what lies beyond either (R125). -/
theorem Window.contains_wrapped {w : Window} (h : w.upper < w.lower) (p : Int) :
    w.contains .rotary p = true ↔ w.lower ≤ p ∨ p ≤ w.upper := by
  unfold Window.contains
  rw [if_pos ⟨rfl, h⟩]
  simp

theorem LimitRole.forbids_iff (r : LimitRole) (d : Dir) :
    r.forbids = some d ↔ d = .positive ∧ r = .noPositive ∨ d = .negative ∧ r = .noNegative := by
  cases r <;> cases d <;> simp [LimitRole.forbids]

/-- The limit question (R129), spelled out. -/
theorem WindowMonitor.limitAgainst_iff (m : WindowMonitor) (a : AxisId) (d : Dir) :
    m.limitAgainst a d = true ↔ ∃ e ∈ m.windows, e.2.axis = a ∧ e.2.occupancy = .occupied ∧
      (d = .positive ∧ e.2.limitRole = .noPositive ∨ d = .negative ∧ e.2.limitRole = .noNegative) := by
  unfold WindowMonitor.limitAgainst
  simp only [List.any_eq_true, Bool.and_eq_true, decide_eq_true_eq, LimitRole.forbids_iff, and_assoc]

/-- The axes a TRIPPED guard stops (R134), spelled out. -/
theorem WindowMonitor.guarded_iff (m : WindowMonitor) (a : AxisId) :
    m.guarded a = true ↔ ∃ e ∈ m.guards, e.2.state = .tripped ∧ a ∈ e.2.stopAxes := by
  unfold WindowMonitor.guarded
  simp only [List.any_eq_true, Bool.and_eq_true, decide_eq_true_eq, List.contains_iff_mem]

/-- The evaluation of a CLEAR guard (R132). -/
theorem Guard.next_clear {g : Guard} (h : g.state = .clear) (ws : Table Window) :
    g.next ws = if ∀ n ∈ g.members, occupancyAt ws n = .occupied then .tripped else .clear := by
  unfold Guard.next
  rw [h]
  simp

/-- The evaluation of a TRIPPED guard (R132). -/
theorem Guard.next_tripped {g : Guard} (h : g.state = .tripped) (ws : Table Window) :
    g.next ws = if ∃ n ∈ g.members, occupancyAt ws n = .vacant then .clear else .tripped := by
  unfold Guard.next
  rw [h]
  simp

/-- Whether an event has changed the occupancy of a member of a guard (R132). -/
def Guard.touched (old new : Table Window) (g : Guard) : Bool :=
  g.members.any (fun n => decide (occupancyAt old n ≠ occupancyAt new n))

/-- A guard behind the test of the windows: evaluated when a member has changed, and kept otherwise. -/
theorem Guard.after_touched (old new : Table Window) (g : Guard) :
    g.after new (Guard.touched old new) =
      if ∃ n ∈ g.members, occupancyAt old n ≠ occupancyAt new n then g.next new else g.state := by
  unfold Guard.after Guard.touched
  simp

/-- The Window Monitor behind the test of the windows of an axis. -/
def WindowMonitor.tested (m : WindowMonitor) (a : AxisId) (x : Axis) : WindowMonitor :=
  let ws := retest a x m.windows
  { m with
    windows := ws
    guards := m.guards.map (fun e => (e.1, { e.2 with state := e.2.after ws (Guard.touched m.windows ws) })) }

/-- What goes out when the windows of an axis are tested (R126, R127, R130, R132 to R134). -/
theorem State.windowsOf_sends (s : State) (a : AxisId) (hg : Table.wf s.monitor.guards) :
    let m := s.monitor
    let x := s.axis a
    let ws := retest a x m.windows
    let after := Guard.after ws (Guard.touched m.windows ws)
    s.windowsOf a =
      ((s.setMonitor (m.tested a x)).offers
        (windowNotices x.position m.windows ws ++
          m.guards.flatMap (fun e => if after e.2 = e.2.state then [] else [.guard e.1 (after e.2)]))).sends
        (m.guards.flatMap (fun e : Nat × Guard =>
            if e.2.state = .clear ∧ after e.2 = .tripped then e.2.stopAxes.map (fun b => (b, .stop)) else []) ++
          releases m (m.tested a x) ++
          limitClaims (fun n _ => decide (crossedAt m.windows ws n = some .enter)) ws) := by
  intro m x ws after
  unfold WindowMonitor.tested
  dsimp only
  rw [← evaluate_eq]
  rw [← guardNotices_evaluate hg, ← stopClaims_evaluate hg]
  rfl

/-- Settles O53: the containment and the questions by their definitions, the event by the laws of what it sends. -/
theorem windowsContainAndGuardsKeepState : Obligations.WindowsContainAndGuardsKeepState := by
  refine ⟨⟨?_, ?_⟩, ?_, ?_, ?_, ?_⟩
  · exact fun w p => ⟨w.contains_linear p, fun h => Window.contains_rotary h p, fun h => Window.contains_wrapped h p⟩
  · exact fun m a => ⟨m.limitAgainst_iff a, m.guarded_iff a⟩
  · intro ws g
    refine ⟨fun hg hall => ?_, fun hg hone => ?_, fun hg hone => ?_, fun hg hnone => ?_⟩
    · rw [Guard.next_clear hg, if_pos hall]
    · rw [Guard.next_clear hg, if_neg (by push Not; exact hone)]
    · rw [Guard.next_tripped hg, if_pos hone]
    · rw [Guard.next_tripped hg, if_neg (by push Not; exact hnone)]
  · exact State.sends_axis
  · intro s a hok x old tested ws after new enters leaves notices guardNotices stops released limits
    obtain ⟨-, -, hw, hg⟩ := hok.stores
    have hafter : Guard.after ws (Guard.touched old.windows ws) = after := funext (Guard.after_touched old.windows ws)
    have hnotices : windowNotices x.position old.windows ws = notices := windowNotices_retest hw a x
    have hlimits : limitClaims (fun n _ => decide (crossedAt old.windows ws n = some .enter)) ws = limits :=
      limitClaims_retest hw a x
    refine (State.windowsOf_sends s a hg).trans ?_
    rw [← hnotices, ← hlimits]
    clear_value after
    subst hafter
    rfl
  · exact fun s a hu hg hsound => State.windowsOf_unreferenced hu hg hsound

end Sys2Proof.Machine
end

section
namespace Sys2Proof.Machine

/-! ### Claims of the Window Monitor -/

/-- What an Axis Controller leaves, where it is known what it does to its axis. -/
theorem State.take_eq {s : State} {a : AxisId} {f : Axis → Taken} {e : Taken} (h : f (s.axis a) = e) :
    s.take a f = (s.setAxis a e.1).offers e.2 := by
  subst h
  rfl

/-- The lines of an axis turn off whatever claims are in flight to it. -/
theorem Axis.turnOff_with_claims (now : Time) (x : Axis) (cs : List Claim) :
    ({ x with claims := cs } : Axis).turnOff now = { x.turnOff now with claims := cs } := by
  obtain ⟨_, _, _, _, _, _, l, _, _, _, _, _⟩ := x
  cases l <;> rfl

/-- The oldest claim in flight is gone. -/
theorem Axis.popClaim_eq {x : Axis} {c : Claim} {rest : List Claim} (h : x.claims = c :: rest) :
    x.popClaim = { x with claims := rest } := by
  unfold Axis.popClaim
  rw [h]
  rfl

theorem Axis.stopClaim_eq {x : Axis} {rest : List Claim} (h : x.claims = .stop :: rest) (a : AxisId) (now : Time) :
    x.stopClaim a now = ({ x with claims := rest } : Axis).takeStop a now := by
  unfold Axis.stopClaim
  rw [h, ← Axis.popClaim_eq h]

theorem Axis.limitClaim_eq {x : Axis} {d : Dir} {rest : List Claim} (h : x.claims = .limit d :: rest) (a : AxisId)
    (now : Time) : x.limitClaim a now = ({ x with claims := rest } : Axis).takeLimit a now d := by
  unfold Axis.limitClaim
  rw [h, ← Axis.popClaim_eq h]

theorem Axis.guardRelease_eq {x : Axis} {rest : List Claim} (h : x.claims = .release :: rest) :
    x.guardRelease = ({ x with claims := rest } : Axis).takeRelease := by
  unfold Axis.guardRelease
  rw [h, ← Axis.popClaim_eq h]

/-- The end of an order by a claim that is gone from those in flight. -/
theorem Axis.endOrder_claimed (a : AxisId) (now : Time) (o : ActiveOrder) (why : Reason) (x : Axis)
    (rest : List Claim) :
    ({ x with claims := rest } : Axis).endOrder a now o why =
      ({ x.turnOff now with
          claims := rest, stall := none, motion := o.motionAfter why x.holdPending, holdPending := false },
        [.orderDone a o.order.tag why x.position o.corrections]) := by
  unfold Axis.endOrder
  rw [Axis.turnOff_with_claims]
  rfl

/-- The end of a homing run by such a claim. -/
theorem Axis.failHoming_claimed (a : AxisId) (now : Time) (why : Reason) (x : Axis) (rest : List Claim) :
    ({ x with claims := rest } : Axis).failHoming a now why =
      ({ x.turnOff now with claims := rest, stall := none, motion := why.motionAfter, holdPending := false },
        [.homeFailed a why]) := by
  unfold Axis.failHoming
  rw [Axis.turnOff_with_claims]

/-- The end of a jog by such a claim. -/
theorem Axis.endJog_claimed (a : AxisId) (now : Time) (why : Reason) (x : Axis) (rest : List Claim) :
    ({ x with claims := rest } : Axis).endJog a now why =
      ({ x.turnOff now with claims := rest, stall := none, motion := why.motionAfter, holdPending := false },
        [.jogEnded a why]) := by
  unfold Axis.endJog
  rw [Axis.turnOff_with_claims]

theorem Axis.takeStop_moving {x : Axis} {o : ActiveOrder} (h : x.motion = .moving o) (a : AxisId) (now : Time) :
    x.takeStop a now = x.endOrder a now o .guarded := by
  unfold Axis.takeStop
  rw [h]

theorem Axis.takeStop_homing {x : Axis} {r : Homing} (h : x.motion = .homing r) (a : AxisId) (now : Time) :
    x.takeStop a now = x.failHoming a now .guarded := by
  unfold Axis.takeStop
  rw [h]

theorem Axis.takeLimit_moving {x : Axis} {o : ActiveOrder} {d : Dir} (h : x.motion = .moving o)
    (hd : x.lines.dir = some d) (a : AxisId) (now : Time) : x.takeLimit a now d = x.endOrder a now o .limited := by
  unfold Axis.takeLimit
  rw [h]
  exact if_pos hd

theorem Axis.takeLimit_jogging {x : Axis} {j : Jog} {d : Dir} (h : x.motion = .jogging j) (hd : j.dir = d) (a : AxisId)
    (now : Time) : x.takeLimit a now d = x.endJog a now .limited := by
  unfold Axis.takeLimit
  rw [h]
  exact if_pos hd

/-- A stop claim on an axis that is neither MOVING nor HOMING does nothing (R121, R133). -/
theorem Axis.takeStop_other {x : Axis} (ho : ∀ o, x.motion ≠ .moving o) (hh : ∀ h, x.motion ≠ .homing h)
    (a : AxisId) (now : Time) : x.takeStop a now = (x, []) := by
  unfold Axis.takeStop
  cases hm : x.motion with
  | moving o => exact absurd hm (ho o)
  | homing h => exact absurd hm (hh h)
  | idle | held | waiting | jogging | faulted => rfl

/-- A limit claim against neither an order that runs in its direction nor a jog in it does nothing (R102, R130). -/
theorem Axis.takeLimit_other {x : Axis} {d : Dir} (ho : ∀ o, x.motion = .moving o → x.lines.dir ≠ some d)
    (hj : ∀ j, x.motion = .jogging j → j.dir ≠ d) (a : AxisId) (now : Time) : x.takeLimit a now d = (x, []) := by
  unfold Axis.takeLimit
  cases hm : x.motion with
  | moving o => exact if_neg (ho o hm)
  | jogging j => exact if_neg (hj j hm)
  | idle | held | waiting | homing | faulted => rfl

/-- Settles O49: each claim is the oldest in flight, and acts by `Axis.takeStop`, `Axis.takeLimit` and
`Axis.takeRelease` on the axis without it. -/
theorem monitorClaimsActByState : Obligations.MonitorClaimsActByState := by
  refine ⟨fun s a rest hc => ?_, fun s a d rest hc => ?_, fun s a rest hc => ?_⟩
  · intro x off
    have hexec {e : Taken} (he : ({ x with claims := rest } : Axis).takeStop a s.timebase = e) :
        exec (.stopClaim a) s = .next ((s.setAxis a e.1).offers e.2) :=
      congrArg Host.Outcome.next (State.take_eq ((Axis.stopClaim_eq hc a s.timebase).trans he))
    exact ⟨fun o hm => hexec ((Axis.takeStop_moving (x := { x with claims := rest }) hm a s.timebase).trans
        (Axis.endOrder_claimed a s.timebase o .guarded x rest)),
      fun h hm => hexec ((Axis.takeStop_homing (x := { x with claims := rest }) hm a s.timebase).trans
        (Axis.failHoming_claimed a s.timebase .guarded x rest)),
      fun ho hh => hexec (Axis.takeStop_other (x := { x with claims := rest }) ho hh a s.timebase)⟩
  · intro x off
    have hexec {e : Taken} (he : ({ x with claims := rest } : Axis).takeLimit a s.timebase d = e) :
        exec (.limitClaim a) s = .next ((s.setAxis a e.1).offers e.2) :=
      congrArg Host.Outcome.next (State.take_eq ((Axis.limitClaim_eq hc a s.timebase).trans he))
    exact ⟨fun o hm hl => hexec ((Axis.takeLimit_moving (x := { x with claims := rest }) hm hl a s.timebase).trans
        (Axis.endOrder_claimed a s.timebase o .limited x rest)),
      fun j hm hj => hexec ((Axis.takeLimit_jogging (x := { x with claims := rest }) hm hj a s.timebase).trans
        (Axis.endJog_claimed a s.timebase .limited x rest)),
      fun ho hj => hexec (Axis.takeLimit_other (x := { x with claims := rest }) ho hj a s.timebase)⟩
  · intro x
    have hexec {e : Taken} (he : ({ x with claims := rest } : Axis).takeRelease = e) :
        exec (.guardRelease a) s = .next ((s.setAxis a e.1).offers e.2) :=
      congrArg Host.Outcome.next (State.take_eq ((Axis.guardRelease_eq hc).trans he))
    refine ⟨fun hm => hexec (e := (_, [])) ?_, fun hm => hexec (e := (_, [])) ?_⟩
    · exact congrArg (fun y : Axis => ((y, []) : Taken)) (if_pos hm)
    · exact congrArg (fun y : Axis => ((y, []) : Taken)) (if_neg hm)

/-! ### The end of an order -/

theorem Reason.isFault_iff {why : Reason} :
    why.isFault = true ↔ why = .line ∨ why = .slip ∨ why = .overrange ∨ why = .stall := by
  cases why <;> simp [Reason.isFault]

/-- The motion state behind the end of an order (R70), spelled out. -/
theorem ActiveOrder.motionAfter_eq (o : ActiveOrder) (why : Reason) (hold : Bool) :
    o.motionAfter why hold =
      if why = .none ∧ o.order.chain = .continue_ ∧ hold = false then .idle
      else if why = .line ∨ why = .slip ∨ why = .overrange ∨ why = .stall then .faulted else .held := by
  unfold ActiveOrder.motionAfter Reason.motionAfter
  by_cases hw : why = .none
  · subst hw
    simp
  · simp only [hw, false_and, if_false, Reason.isFault_iff]

/-- Where the clock runs on to an expiry, the timers of every axis have run on. -/
theorem State.runTo_axis (s : State) (t : Timer) (late : Nat) (a : AxisId) :
    (s.runTo t late).axis a = (s.axis a).advance (t.wait late) := s.advance_axis _ a

/-- An act on the order of a MOVING axis. -/
theorem Axis.onOrder_moving {x : Axis} {o : ActiveOrder} (h : x.motion = .moving o)
    (f : ActiveOrder → Axis → Taken) : x.onOrder f = f o x := by
  unfold Axis.onOrder
  rw [h]

/-- The homing limit's expiry fails the run TIMEOUT: lines off, HELD, the queue kept (R32). -/
theorem State.homingLimit_expires {s : State} {a : AxisId} {h : Homing} {late : Nat}
    (hm : (s.axis a).motion = .homing h) (hrun : s.mayRun (h.limit.wait late) = true) :
    let v := s.runTo h.limit late
    exec (.homingLimitExpiry a late) s =
      .next ((v.setAxis a { (v.axis a).turnOff v.timebase with
        stall := none, motion := .held, holdPending := false }).offers [.homeFailed a .timeout]) := by
  intro v
  show Host.Outcome.next (s.expire (s.axis a).motion.homingLimit late _) = _
  rw [hm, show (Motion.homing h).homingLimit = some h.limit from rfl, State.expire_some hrun]
  rfl

/-- Settles O47: the fields of `Axis.endOrder`, and the three expiries that end an order or a run. -/
theorem ordersEndOnceWithTheirOutcome : Obligations.OrdersEndOnceWithTheirOutcome := by
  refine ⟨fun a now o why x hm => ?_, fun s a late t o hrun => ?_, fun s a h late hm hrun => ?_⟩
  · have hacts := x.acts_endOrder a now o why
    have hqueue := x.endOrder_queue a now o why
    have hstill : (x.endOrder a now o why).1.moveQueue = x.queue := by
      rw [Axis.moveQueue_eq, hqueue,
        show (x.endOrder a now o why).1.motion.active = none from o.motionAfter_active why x.holdPending]
      rfl
    refine ⟨rfl, x.turnOff_lines now, rfl, rfl, hqueue, hstill, hacts.toControlled, fun hl => ?_, fun d h hl => ?_,
      o.motionAfter_eq why x.holdPending⟩
    · show (x.turnOff now).lockout = _
      rw [x.turnOff_of_off now hl]
    · show (x.turnOff now).lockout = _
      rw [x.turnOff_of_run now d h hl]
      rfl
  · intro v ended
    refine ⟨fun ht hm => ?_, fun ht hm => ?_⟩
    · show Host.Outcome.next (s.expire (s.axis a).motion.settleTimer late _) = _
      rw [ht, State.expire_some hrun]
      exact congrArg Host.Outcome.next (State.take_eq (Axis.onOrder_moving hm _))
    · show Host.Outcome.next (s.expire (s.axis a).motion.moveLimit late _) = _
      rw [ht, State.expire_some hrun]
      exact congrArg Host.Outcome.next (State.take_eq (Axis.onOrder_moving hm _))
  · intro v x
    refine ⟨_, State.homingLimit_expires hm hrun, ?_, ?_, fun b hb => ?_, ?_, ?_, ?_, ?_, ?_⟩
    · rw [State.offers_axis, State.setAxis_axis, if_pos rfl]
    · rw [State.offers_eq, State.offers_eq]
      rfl
    · rw [State.offers_axis, State.setAxis_axis, if_neg hb]
    all_goals simp [v]

end Sys2Proof.Machine
end

section
namespace Sys2Proof.Machine

/-! ### The lines of a homing run -/

theorem Dir.opposite_ne (d : Dir) : d.opposite ≠ d := by
  cases d <;> decide

theorem Axis.driven_iff {x : Axis} : x.driven = true ↔ x.config.role = .driven := by
  simp [Axis.driven]

theorem Axis.not_driven_of_watched {x : Axis} (h : x.config.role = .watched) : x.driven = false := by
  simp [Axis.driven, h]

/-- The stall timer of a turn-on (R15), spelled out. -/
theorem Axis.newStall_eq (x : Axis) :
    x.newStall =
      if x.config.role = .watched ∨ x.config.stallTime = 0 then none else some ⟨x.config.stallTime, 0⟩ := by
  unfold Axis.newStall Axis.driven Timer.start
  cases x.config.role <;> by_cases h : x.config.stallTime = 0 <;> simp [h]

/-- The lines of a WATCHED axis are left alone (R30). -/
theorem Axis.bringLines_watched {x : Axis} (h : x.config.role = .watched) (now : Time) (r : Homing) :
    x.bringLines now r = x := by
  unfold Axis.bringLines
  rw [Axis.not_driven_of_watched h]
  rfl

/-- The RUN line of the wanted pattern is on: HIGH turns on or off (R24). -/
theorem Axis.bringLines_same {x : Axis} {r : Homing} {e : Bool} (h : x.config.role = .driven)
    (hl : x.lines = .run r.wanted.1 e) (now : Time) :
    x.bringLines now r = { x with lines := .run r.wanted.1 r.wanted.2 } := by
  unfold Axis.bringLines
  rw [if_pos (Axis.driven_iff.2 h), if_pos (by rw [hl]; rfl), Axis.setHigh_of_run _ _ _ _ hl]

/-- The other RUN line is on: it turns off, and the lockout keeps the wanted one off (R24, R111). -/
theorem Axis.bringLines_opposite {x : Axis} {r : Homing} {e : Bool} (h : x.config.role = .driven)
    (hl : x.lines = .run r.wanted.1.opposite e) (now : Time) :
    x.bringLines now r =
      { x with
        lines := .off, stall := none
        lockout := some ⟨r.wanted.1.opposite, now, some ⟨x.config.reversalGap, 0⟩, 0⟩ } := by
  have hdir : ¬ x.lines.dir = some r.wanted.1 := by
    rw [hl]
    exact fun e => r.wanted.1.opposite_ne (Option.some.inj e)
  unfold Axis.bringLines
  rw [if_pos (Axis.driven_iff.2 h), if_neg hdir, Axis.turnOff_of_run _ _ _ _ hl]
  unfold Axis.askFor
  refine if_neg ?_
  simp [Axis.permits, r.wanted.1.opposite_ne]

/-- The lines are off: the wanted line turns on where the lockout permits it (R24, R111). -/
theorem Axis.bringLines_off {x : Axis} {r : Homing} (h : x.config.role = .driven) (hl : x.lines = .off) (now : Time) :
    x.bringLines now r = if x.permits r.wanted.1 then x.turnOn r.wanted.1 r.wanted.2 else x := by
  unfold Axis.bringLines
  rw [if_pos (Axis.driven_iff.2 h), if_neg (by rw [hl]; exact Option.some_ne_none _ ∘ Eq.symm),
    Axis.turnOff_of_off _ _ hl]
  unfold Axis.askFor
  rw [hl]

/-! ### The leg start -/

/-- The position of the Axis Controller: that of the Counting Unit, or between a counting fault and its claim the one
that the remaining distance stands for (notes/assumptions/12.md). -/
theorem Axis.knownPosition_eq {x : Axis} {o : ActiveOrder} {p : Int}
    (h : x.position = some p ∨ x.position = none ∧ p =
      (if x.config.kind = .rotary then (o.target - o.dir.sign * o.dist) % x.config.modulus
        else o.target - o.dir.sign * o.dist)) : x.knownPosition o = p := by
  unfold Axis.knownPosition
  rcases h with h | ⟨h, rfl⟩
  · rw [h]
  · rw [h]
    unfold Axis.reduce
    cases x.config.kind <;> rfl

/-- An order as a leg start from a position sets it out first (R83 step 1). -/
def ActiveOrder.aimed (o : ActiveOrder) (aim : Aim) : ActiveOrder := { o with dir := aim.dir, dist := aim.dist }

/-- A leg start inside the window settles (R83 step 2). -/
theorem Axis.legStart_settle {x : Axis} {o : ActiveOrder} {p : Int}
    (h : planLeg x.config.kind o.snapshot o.corrections (x.config.aim o.snapshot p o.target) = .settle) (a : AxisId)
    (now : Time) (limited : Dir → Bool) :
    x.legStart a now limited p o = x.enterSettle a (o.aimed (x.config.aim o.snapshot p o.target)) := by
  unfold Axis.legStart
  dsimp only
  rw [h]
  rfl

/-- A leg start outside the window begins its leg (R83 steps 3 and 4). -/
theorem Axis.legStart_run {x : Axis} {o : ActiveOrder} {p : Int} {d : Dir} {high : Bool} {sub : Substate}
    (h : planLeg x.config.kind o.snapshot o.corrections (x.config.aim o.snapshot p o.target) = .run d high sub)
    (a : AxisId) (now : Time) (limited : Dir → Bool) :
    x.legStart a now limited p o =
      x.beginLeg a now limited (o.aimed (x.config.aim o.snapshot p o.target)) d high sub := by
  unfold Axis.legStart
  dsimp only
  rw [h]
  rfl

/-- The record of an order whose leg turns on: SLOW-ENTERED may be reported with it (R97). -/
def ActiveOrder.legReport (a : AxisId) (sub : Substate) (o : ActiveOrder) : ActiveOrder × List NoticeBody :=
  match sub with
  | .slow _ => o.report a .slowEntered
  | _ => (o, [])

/-- A leg that neither a limit window nor the lockout forbids turns on (R84). -/
theorem Axis.beginLeg_on {x : Axis} {limited : Dir → Bool} {d : Dir} (hl : limited d = false)
    (hp : x.permits d = true) (a : AxisId) (now : Time) (o : ActiveOrder) (high : Bool) (sub : Substate) :
    x.beginLeg a now limited o d high sub =
      ({ x.turnOn d high with
          motion := .moving { (o.legReport a sub).1 with substate := sub, leg := some o.dir } },
        (o.legReport a sub).2) := by
  unfold Axis.beginLeg
  rw [hl, hp]
  cases sub <;> rfl

/-- What a report of a zone keeps of the order: all but the zones reported. -/
theorem ActiveOrder.legReport_eq (a : AxisId) (sub : Substate) (o : ActiveOrder) :
    (o.legReport a sub).1 = { o with zones := (o.legReport a sub).1.zones } := by
  have hreport (z : Zone) : (o.report a z).1 = { o with zones := (o.report a z).1.zones } := by
    unfold ActiveOrder.report
    split <;> rfl
  cases sub with
  | slow k => exact hreport .slowEntered
  | takeup | fast | coast | settle | reversing => rfl

/-! ### The lockout ends -/

/-- The lockout of an axis ends, whatever its timer has run. -/
theorem Axis.endLockout_eq {x : Axis} {ro : RunOff} (h : x.lockout = some ro) :
    x.endLockout = { x with lockout := some { ro with timer := none, spent := 0 } } := by
  unfold Axis.endLockout
  rw [h]
  rfl

/-- An axis on which nothing waits for the lockout. -/
theorem Axis.lockoutExpired_standing {x : Axis} (h : x.motion.inMotion = false) (a : AxisId) (now : Time)
    (limited : Dir → Bool) : x.lockoutExpired a now limited = (x.endLockout, []) := by
  unfold Axis.lockoutExpired
  dsimp only
  rw [Axis.endLockout_motion]
  cases hm : x.motion with
  | moving | homing | jogging => rw [hm] at h; cases h
  | idle | held | waiting | faulted => rfl

theorem Axis.lockoutExpired_jogging {x : Axis} {j : Jog} (h : x.motion = .jogging j) (a : AxisId) (now : Time)
    (limited : Dir → Bool) :
    x.lockoutExpired a now limited = (if j.pending then x.endLockout.askJog j else x.endLockout, []) := by
  unfold Axis.lockoutExpired
  dsimp only
  rw [Axis.endLockout_motion, h]

theorem Axis.lockoutExpired_homing {x : Axis} {r : Homing} (h : x.motion = .homing r) (a : AxisId) (now : Time)
    (limited : Dir → Bool) : x.lockoutExpired a now limited = (x.endLockout.bringLines now r, []) := by
  unfold Axis.lockoutExpired
  dsimp only
  rw [Axis.endLockout_motion, h]

/-- An order that is not in REVERSING does not wait for the lockout. -/
theorem Axis.lockoutExpired_running {x : Axis} {o : ActiveOrder} (h : x.motion = .moving o)
    (hs : ∀ d, o.substate ≠ .reversing d) (a : AxisId) (now : Time) (limited : Dir → Bool) :
    x.lockoutExpired a now limited = (x.endLockout, []) := by
  unfold Axis.lockoutExpired
  dsimp only
  rw [Axis.endLockout_motion, h]
  cases hsub : o.substate with
  | reversing d => exact absurd hsub (hs d)
  | takeup | fast | slow | coast | settle => simp only [hsub]

/-- An order in REVERSING takes a leg start (R85). -/
theorem Axis.lockoutExpired_reversing {x : Axis} {o : ActiveOrder} {d : Dir} (h : x.motion = .moving o)
    (hs : o.substate = .reversing d) (a : AxisId) (now : Time) (limited : Dir → Bool) :
    x.lockoutExpired a now limited =
      x.endLockout.legStart a now limited (x.endLockout.knownPosition o) o := by
  unfold Axis.lockoutExpired
  dsimp only
  rw [Axis.endLockout_motion, h]
  simp only [hs]

/-- With the lockout ended a jog that asks for its line has it (R115). -/
theorem Axis.askJog_endLockout (j : Jog) (x : Axis) :
    x.endLockout.askJog j =
      { x.endLockout.turnOn j.dir (decide (j.speed = .high)) with motion := .jogging { j with pending := false } } := by
  unfold Axis.askJog
  exact if_pos (x.permits_endLockout j.dir)

/-- Settles O52: `Axis.lockoutExpired` in each motion state, on the axis whose lockout has ended. -/
theorem lockoutExpiryHandsOn : Obligations.LockoutExpiryHandsOn := by
  intro s a late ro t hro ht hrun v x y stall gives
  have hend : x.endLockout = y := by
    have hlock : x.lockout = some { ro with timer := some (t.advance (t.wait late)) } := by
      show ((s.runTo t late).axis a).lockout = _
      rw [State.runTo_axis]
      show (s.axis a).lockout.map _ = _
      rw [hro, Option.map_some, ht]
      rfl
    exact (Axis.endLockout_eq hlock).trans rfl
  have hexec {e : Taken} (he : x.lockoutExpired a v.timebase (v.monitor.limitAgainst a) = e) :
      exec (.lockoutTimerExpiry a late) s = .next ((v.setAxis a e.1).offers e.2) := by
    show Host.Outcome.next (s.expire (s.axis a).lockoutTimer late _) = _
    rw [show (s.axis a).lockoutTimer = some t from (congrArg (Option.bind · RunOff.timer) hro).trans ht,
      State.expire_some hrun]
    exact congrArg Host.Outcome.next (State.take_eq he)
  have hstall : y.newStall = stall := Axis.newStall_eq y
  refine ⟨fun hm => ?_, fun j hm hj => ?_, fun j hm hj => ?_, fun h hm => ?_, fun h hm hr hl => ?_,
    fun h hm hr hl => ?_, fun h hm hr => ?_, fun o hm hs => ?_, fun o d p hm hs hp => ?_, fun o d p hm hs hp => ?_⟩
  · have hstill : x.motion.inMotion = false := by rcases hm with hm | hm | hm | hm <;> rw [hm] <;> rfl
    rw [← hend]
    exact hexec (Axis.lockoutExpired_standing hstill _ _ _)
  · rw [← hend]
    refine hexec (e := (_, [])) ?_
    rw [Axis.lockoutExpired_jogging hm, hj]
    rfl
  · refine hexec (e := (_, [])) ?_
    rw [Axis.lockoutExpired_jogging hm, hj, if_pos rfl, Axis.askJog_endLockout, hend, ← hstall]
    rfl
  · rw [← hend]
    exact hexec (Axis.lockoutExpired_homing hm _ _ _)
  · refine hexec (e := (_, [])) ?_
    rw [Axis.lockoutExpired_homing hm, Axis.bringLines_off (x := x.endLockout) hr hl,
      Axis.permits_endLockout, if_pos rfl, hend, ← hstall]
    rfl
  · refine hexec (e := (y, [])) ?_
    rw [Axis.lockoutExpired_homing hm, Axis.bringLines_same (x := x.endLockout) hr hl, hend, ← hl]
  · rw [← hend]
    refine hexec (e := (_, [])) ?_
    rw [Axis.lockoutExpired_homing hm, Axis.bringLines_watched (x := x.endLockout) hr]
    rfl
  · rw [← hend]
    exact hexec (Axis.lockoutExpired_running hm hs _ _ _)
  · refine hexec ?_
    rw [Axis.lockoutExpired_reversing hm hs, hend, Axis.knownPosition_eq (x := y) hp]
  · intro aim leg
    have hleg := (Axis.lockoutExpired_reversing hm hs a v.timebase (v.monitor.limitAgainst a))
    rw [hend, Axis.knownPosition_eq (x := y) (Or.inl hp)] at hleg
    refine ⟨fun e h sub hrunleg hlimit => ?_, fun hsettle => ?_, fun e h sub hrunleg hlimit => ?_⟩
    · rw [Axis.legStart_run (x := y) hrunleg] at hleg
      refine (hexec hleg).trans ?_
      unfold Axis.beginLeg
      rw [if_pos hlimit, ← hp]
      rfl
    · rw [Axis.legStart_settle (x := y) hsettle] at hleg
      refine ⟨_, { ((o.aimed aim).report a .windowEntered).1 with substate := .settle ⟨o.settle, 0⟩ }, hexec hleg, ?_,
        rfl, ?_, ((o.aimed aim).report_order a .windowEntered)⟩
      · rw [State.offers_axis, State.setAxis_axis, if_pos rfl]
        rfl
      · rw [State.offers_axis, State.setAxis_axis, if_pos rfl]
        rfl
    · rw [Axis.legStart_run (x := y) hrunleg,
        Axis.beginLeg_on hlimit (by rw [← hend]; exact x.permits_endLockout e)] at hleg
      have hreport := (o.aimed aim).legReport_eq a sub
      refine ⟨_, { ((o.aimed aim).legReport a sub).1 with substate := sub, leg := some aim.dir }, hexec hleg, ?_,
        rfl, ?_, ?_, ?_, ?_, ?_, rfl⟩
      · rw [State.offers_axis, State.setAxis_axis, if_pos rfl]
        rfl
      · rw [State.offers_axis, State.setAxis_axis, if_pos rfl]
        rfl
      · rw [State.offers_axis, State.setAxis_axis, if_pos rfl]
        exact hstall
      all_goals
        rw [hreport]
        rfl

end Sys2Proof.Machine
end

section
namespace Sys2Proof.Machine

/-! ### HOME -/

/-- SENSE on its present level (R11). -/
theorem Axis.senseActive_eq (x : Axis) :
    x.senseActive = (x.pins.sense == decide (x.config.senseLevel = .activeHigh)) :=
  x.senseActive_at x.pins.sense

/-- The substate in which a run starts (R23), spelled out. -/
theorem Axis.homingStart_eq (m : Method) (x : Axis) :
    x.homingStart m = if m = .indexOnly then .awaitIndex else if x.senseActive then .onSwitch else .seek := by
  cases m <;> simp [Axis.homingStart]

/-- A run that starts on an axis with its lines off turns the wanted line on, on a DRIVEN axis and where the lockout
permits it (R24, R30). -/
theorem Axis.homingGoes_off {x : Axis} (hl : x.lines = .off) (hs : x.stall = none) (now : Time) (h : Homing) :
    let runs : Prop := x.config.role = .driven ∧ x.permits h.wanted.1 = true
    (x.homingGoes now h).1 =
      { x with
        motion := .homing h
        lines := if runs then .run h.wanted.1 h.wanted.2 else .off
        stall := if runs ∧ x.config.stallTime ≠ 0 then some ⟨x.config.stallTime, 0⟩ else none } := by
  intro runs
  show ({ x with motion := .homing h } : Axis).bringLines now h = _
  have hoff : ({ x with motion := .homing h } : Axis).lines = .off := hl
  by_cases hr : runs
  · have hp : ({ x with motion := .homing h } : Axis).permits h.wanted.1 = true := hr.2
    rw [Axis.bringLines_off (x := { x with motion := .homing h }) hr.1 hoff, if_pos hp, if_pos hr]
    unfold Axis.turnOn
    rw [Axis.newStall_eq]
    simp [hr, hr.1]
  · simp only [if_neg hr, if_neg (not_and_of_not_left _ hr), ← hl, ← hs]
    cases hrole : x.config.role with
    | watched => exact Axis.bringLines_watched (x := { x with motion := .homing h }) hrole now h
    | driven =>
      have hp : ¬ ({ x with motion := .homing h } : Axis).permits h.wanted.1 = true := fun hp => hr ⟨hrole, hp⟩
      rw [Axis.bringLines_off (x := { x with motion := .homing h }) hrole hoff, if_neg hp]

/-- All an accepted HOME does to an axis that stands still (R23). -/
theorem State.startHoming_eq {s : State} {a : AxisId} (hok : s.MonitorOk) (hl : (s.axis a).lines = .off)
    (hs : (s.axis a).stall = none) (h : Homing) :
    let x := s.axis a
    let runs : Prop := x.config.role = .driven ∧ x.permits h.wanted.1 = true
    s.startHoming a h =
      s.lost a { x with
        motion := .homing h
        lines := if runs then .run h.wanted.1 h.wanted.2 else .off
        stall := if runs ∧ x.config.stallTime ≠ 0 then some ⟨x.config.stallTime, 0⟩ else none
        counting := x.counting.dropped } := by
  intro x runs
  let y := (x.homingGoes s.timebase h).1
  have href : y.counting.reference = x.counting.reference :=
    congrArg CountingUnit.reference (x.acts_homingGoes s.timebase h).counting
  have hlose := State.loseReference_eq (s := s.setAxis a y) (a := a) hok.guards hok.sound
  rw [State.setAxis_axis, if_pos rfl, State.setAxis_lost href] at hlose
  refine hlose.trans ?_
  rw [show y = _ from Axis.homingGoes_off hl hs s.timebase h]

/-- An accepted HOME leaves the Link Port out. -/
theorem State.startHoming_setLink (s : State) (l : LinkPort) (a : AxisId) (h : Homing) :
    (s.setLink l).startHoming a h = (s.startHoming a h).setLink l := by
  unfold State.startHoming
  rw [State.take_setLink, State.loseReference_setLink, State.setLink_timebase]

theorem State.startHoming_link (s : State) (a : AxisId) (h : Homing) : (s.startHoming a h).link = s.link := by
  simp [State.startHoming, State.loseReference_link]

/-- HOME by its checks in order (R22, R23). -/
theorem Serves.home {s : State} {r : Request} {fs : List Field} (h : Serves s .home r fs) :
    let a := fieldAxis fs
    let x := s.axis a
    let datum := fieldInt fs .datum
    (x.datumFits datum = false → exec .home s = .next (s.answered r ⟨.badValue, [(.detail, 67)], [], []⟩)) ∧
    (x.datumFits datum = true → x.motion.isFaulted = true →
      exec .home s = .next (s.answered r ⟨.faulted, [], [], []⟩)) ∧
    (x.datumFits datum = true → x.motion.isFaulted = false → x.motion.inMotion = true →
      exec .home s = .next (s.answered r ⟨.wrongState, [], [], []⟩)) ∧
    (x.datumFits datum = true → x.motion.isFaulted = false → x.motion.inMotion = false →
      s.monitor.guarded a = true →
      exec .home s = .next (s.answered r ⟨.guarded, [], [], []⟩)) ∧
    (x.datumFits datum = true → x.motion.isFaulted = false → x.motion.inMotion = false →
      s.monitor.guarded a = false →
      exec .home s =
        .next ((s.startHoming a (x.homingRecord fs)).answered r
          ⟨.ok, [(.substate, (x.homingRecord fs).substate.code)], [], []⟩)) := by
  intro a x datum
  have hexec {t : State} {ans : Answer}
      (ht : homeRule fs (s.setLink s.link.popIntake) = (ans, t.setLink s.link.popIntake)) (hl : t.link = s.link) :
      exec .home s = .next (t.answered r ans) := congrArg Host.Outcome.next (h.executes ht hl)
  unfold homeRule at hexec
  dsimp only at hexec
  rw [State.setLink_axis, State.setLink_monitor, State.startHoming_setLink] at hexec
  refine ⟨fun hd => hexec ?_ rfl, fun hd hf => hexec ?_ rfl, fun hd hf hm => hexec ?_ rfl,
    fun hd hf hm hg => hexec ?_ rfl, fun hd hf hm hg => hexec ?_ (State.startHoming_link ..)⟩
  · rw [if_pos hd]
    rfl
  · rw [if_neg (ne_false_of_eq_true hd), if_pos hf]
    rfl
  · rw [if_neg (ne_false_of_eq_true hd), if_neg (ne_true_of_eq_false hf), if_pos hm]
    rfl
  · rw [if_neg (ne_false_of_eq_true hd), if_neg (ne_true_of_eq_false hf), if_neg (ne_true_of_eq_false hm), if_pos hg]
    rfl
  · rw [if_neg (ne_false_of_eq_true hd), if_neg (ne_true_of_eq_false hf), if_neg (ne_true_of_eq_false hm),
      if_neg (ne_true_of_eq_false hg)]
    rfl

/-! ### An edge of SENSE that meets the acceptance of HOME -/

/-- A loss of reference leaves configuration and pins. -/
theorem State.loseReference_wired (s : State) (a b : AxisId) :
    ((s.loseReference a).axis b).config = (s.axis b).config ∧
      ((s.loseReference a).axis b).pins = (s.axis b).pins := by
  have hsame {x y : Axis} (h : x.SameButClaims y) : y.config = x.config ∧ y.pins = x.pins := by
    rw [show y = { x with claims := y.claims } from h]
    exact ⟨rfl, rfl⟩
  unfold State.loseReference
  split
  · exact ⟨rfl, rfl⟩
  · obtain ⟨hconfig, hpins⟩ := hsame (State.windowsOf_same _ a b)
    rw [hconfig, hpins, State.modifyAxis_axis]
    split
    · rename_i hb
      subst hb
      exact ⟨rfl, rfl⟩
    · exact ⟨rfl, rfl⟩

/-- HOME leaves configuration and pins of every axis. -/
theorem homeRule_wired (fs : List Field) (s : State) (b : AxisId) :
    ((homeRule fs s).2.axis b).config = (s.axis b).config ∧ ((homeRule fs s).2.axis b).pins = (s.axis b).pins := by
  unfold homeRule
  dsimp only
  (repeat' split) <;> try exact ⟨rfl, rfl⟩
  unfold State.startHoming
  obtain ⟨hconfig, hpins⟩ := State.loseReference_wired
    (s.take (fieldAxis fs) (Axis.homingGoes s.timebase ((s.axis (fieldAxis fs)).homingRecord fs))) (fieldAxis fs) b
  rw [hconfig, hpins, State.take_axis]
  split
  · rename_i hb
    subst hb
    have hacts := Axis.acts_homingGoes s.timebase ((s.axis (fieldAxis fs)).homingRecord fs) (s.axis (fieldAxis fs))
    exact ⟨hacts.config, hacts.pins⟩
  · exact ⟨rfl, rfl⟩

theorem State.execute_home_wired (s : State) (b : AxisId) :
    ((s.execute .home homeRule).axis b).config = (s.axis b).config ∧
      ((s.execute .home homeRule).axis b).pins = (s.axis b).pins := by
  unfold State.execute
  split
  · exact ⟨rfl, rfl⟩
  · unfold State.serve
    split
    · exact ⟨rfl, rfl⟩
    · exact homeRule_wired _ (s.setLink s.link.popIntake) b

/-- The Capture Log passes over an edge of a HOMING axis (R149). -/
theorem State.logSense_homing {s : State} {a : AxisId} (h : (s.axis a).motion.isHoming = true) (active : Bool) :
    s.logSense a active = s := by
  refine (State.take_eq (e := (s.axis a, [])) ?_).trans (State.setAxis_self s a)
  unfold Axis.capture
  simp [h]

/-- An edge of SENSE on an axis that is not homing: a HOME that meets it, and the Capture Log behind it (R151). -/
theorem State.senseChange_standing {s : State} {a : AxisId} (h : (s.axis a).motion.isHoming = false) (high : Bool)
    (order : List Block) :
    s.senseChange a high order =
      ((s.modifyAxis a (Axis.senseLevel high)).homeAtEdge order).logSense a
        (high == decide ((s.axis a).config.senseLevel = .activeHigh)) := by
  have haxis : (s.modifyAxis a (Axis.senseLevel high)).axis a = (s.axis a).senseLevel high := by simp
  have hmotion : ((s.axis a).senseLevel high).motion = (s.axis a).motion := rfl
  unfold State.senseChange
  dsimp only
  rw [haxis, Axis.senseActive_at, hmotion]
  cases hm : (s.axis a).motion with
  | homing r => rw [hm] at h; cases h
  | idle | held | waiting | moving | jogging | faulted => rfl

/-- An edge of SENSE reaches the Capture Log alone where no HOME meets it, from the other level as from this one. -/
theorem State.senseEdge_behind {u : State} {a : AxisId} {high : Bool} (hm : (u.axis a).motion.isHoming = false)
    (hs : (u.axis a).pins.sense = high) :
    exec (.senseEdge a high []) (u.modifyAxis a (Axis.senseLevel (!high))) =
      .next (u.logSense a (high == decide ((u.axis a).config.senseLevel = .activeHigh))) := by
  have haxis : (u.modifyAxis a (Axis.senseLevel (!high))).axis a = (u.axis a).senseLevel (!high) := by simp
  have hback : (u.modifyAxis a (Axis.senseLevel (!high))).modifyAxis a (Axis.senseLevel high) = u := by
    subst hs
    unfold State.modifyAxis at haxis ⊢
    rw [haxis, State.setAxis_setAxis]
    exact State.setAxis_self u a
  have hnot : ¬ ((u.modifyAxis a (Axis.senseLevel (!high))).axis a).pins.sense = high := by
    rw [haxis]
    exact Bool.not_ne_self high
  refine congrArg Host.Outcome.next ((if_neg hnot).trans ?_)
  rw [State.senseChange_captured (by rw [haxis]; exact hm) (Or.inl (by decide)), hback, haxis]
  rfl

/-- Settles O34: HOME by its checks (`Serves.home`) and its effect (`State.startHoming_eq`), and the edge that meets
it. -/
theorem homeStartsARun : Obligations.HomeStartsARun := by
  refine ⟨?_, ?_⟩
  · rintro s r fs a hserves rfl
    intro x datum fits
    have hfits : x.datumFits datum = true ↔ fits := Axis.datumFits_iff
    obtain ⟨hbad, hfaulted, hmoving, hguarded, hok⟩ := hserves.home
    have hstill (hm : x.motion = .idle ∨ x.motion = .held ∨ x.motion = .waiting) :
        x.motion.isFaulted = false ∧ x.motion.inMotion = false := by
      rcases hm with hm | hm | hm <;> rw [hm] <;> exact ⟨rfl, rfl⟩
    refine ⟨fun hn => hbad (Bool.eq_false_iff.2 (mt hfits.1 hn)),
      fun hf hm => hfaulted (hfits.2 hf) (Motion.isFaulted_iff.2 hm), fun hf hm => hmoving (hfits.2 hf) ?_ hm,
      fun hf hm hg => hguarded (hfits.2 hf) (hstill hm).1 (hstill hm).2 hg, fun hf hm hg hmonitor hlines => ?_⟩
    · refine Bool.eq_false_iff.2 fun hfault => ?_
      have hm' : x.motion.inMotion = true := hm
      rw [Motion.isFaulted_iff.1 hfault] at hm'
      cases hm'
    · intro active method h runs
      have hsubstate : x.homingStart method = h.substate := by
        rw [Axis.homingStart_eq, Axis.senseActive_eq]
      have hrecord : x.homingRecord fs = h :=
        congrArg (fun sub : HomingSubstate => ({ h with substate := sub } : Homing)) hsubstate
      have hoff : x.lines = .off := hlines.off_of (hstill hm).2
      rw [hok (hfits.2 hf) (hstill hm).1 (hstill hm).2 hg, hrecord,
        State.startHoming_eq hmonitor hoff (hlines.stall hoff)]
  · intro s a high order hm hs hb level
    let u := (s.modifyAxis a (Axis.senseLevel high)).execute .home homeRule
    obtain ⟨hconfig, hpins⟩ := State.execute_home_wired (s.modifyAxis a (Axis.senseLevel high)) a
    have haxis : (s.modifyAxis a (Axis.senseLevel high)).axis a = (s.axis a).senseLevel high := by simp
    rw [haxis] at hconfig hpins
    have hedge : exec (.senseEdge a high order) s =
        .next (u.logSense a (high == decide ((u.axis a).config.senseLevel = .activeHigh))) := by
      refine congrArg Host.Outcome.next ((if_neg hs).trans ?_)
      rw [State.senseChange_standing hm, show (u.axis a).config = (s.axis a).config from hconfig]
      exact congrArg (State.logSense · a _) (if_pos hb)
    refine ⟨u, rfl, fun hu => hedge.trans ?_, fun hu => hedge.trans ?_⟩
    · rw [State.logSense_homing hu]
    · exact (State.senseEdge_behind hu (congrArg AxisPins.sense hpins)).symm

end Sys2Proof.Machine
end

section
namespace Sys2Proof.Machine

/-! ### Blocks in the order of a command -/

/-- Each element is kept once. -/
theorem nodup_eraseDups {α : Type} [BEq α] [LawfulBEq α] (l : List α) : l.eraseDups.Nodup := by
  induction hn : l.length using Nat.strong_induction_on generalizing l with
  | _ n ih =>
    cases l with
    | nil => simp
    | cons x l =>
      rw [List.eraseDups_cons, List.nodup_cons]
      refine ⟨fun hx => ?_, ih _ ?_ _ rfl⟩
      · have := List.mem_eraseDups.1 hx
        simp at this
      · have := List.length_filter_le (fun b => !b == x) l
        simp only [List.length_cons] at hn
        omega

/-- The order of a command brings the blocks of an event in another order, and no more. -/
theorem Block.arrange_perm (order : List Block) {blocks : List Block} (h : blocks.Nodup) :
    (Block.arrange order blocks).Perm blocks := by
  have hmem (b : Block) : b ∈ Block.arrange order blocks ↔ b ∈ blocks := by
    simp only [Block.arrange, List.mem_append, List.mem_eraseDups, List.mem_filter, List.contains_iff_mem]
    by_cases hb : b ∈ order <;> simp [hb]
  have hnodup : (Block.arrange order blocks).Nodup := by
    refine List.nodup_append.2 ⟨nodup_eraseDups _, h.filter _, fun b hb c hc hbc => ?_⟩
    have hin : b ∈ order := (List.mem_filter.1 (List.mem_eraseDups.1 hb)).1
    have hout := (List.mem_filter.1 hc).2
    rw [← hbc] at hout
    simp [hin] at hout
  exact (List.perm_ext_iff_of_nodup hnodup h).2 hmem

/-- Notices offered behind others. -/
theorem State.offers_append (s : State) (bs cs : List NoticeBody) : s.offers (bs ++ cs) = (s.offers bs).offers cs :=
  List.foldl_append

/-- What the Notice Queue holds behind an event depends on what it held, on the time and on the notices offered. -/
theorem State.offers_notices_of {s t : State} {bs : List NoticeBody} (hn : t.notices = (s.offers bs).notices)
    (ht : t.timebase = s.timebase) (cs : List NoticeBody) : (t.offers cs).notices = (s.offers (bs ++ cs)).notices := by
  rw [State.offers_append, State.offers_eq t, State.offers_eq (s.offers bs), State.offers_timebase, ← hn, ← ht]
  rfl

/-! ### Link loss -/

/-- The notices that one block offers at a link loss. -/
def State.lossNotices (stopped : List AxisId) (s : State) : Block → List NoticeBody
  | .axisController a => ((s.axis a).linkLost a s.timebase).2
  | .linkPort => [.linkLost stopped s.timebase]
  | .windowMonitor | .captureLog | .orderStart _ => []

/-- An Axis Controller that takes a link loss changes its own axis. -/
theorem State.lossAt_axis (stopped : List AxisId) (s : State) (b : Block) (a : AxisId) :
    (s.lossAt stopped b).axis a =
      if b = .axisController a then ((s.axis a).linkLost a s.timebase).1 else s.axis a := by
  cases b with
  | axisController c =>
    by_cases h : a = c
    · subst h
      simp [State.lossAt]
    · simp [State.lossAt, h, Ne.symm h]
  | windowMonitor | captureLog | linkPort | orderStart => simp [State.lossAt]

theorem State.lossAt_notices (stopped : List AxisId) (s : State) (b : Block) :
    (s.lossAt stopped b).notices = (s.offers (s.lossNotices stopped b)).notices := by
  cases b with
  | axisController c => simp [State.lossAt, State.lossNotices]
  | windowMonitor | captureLog | linkPort | orderStart => rfl

/-- What a link loss leaves alone of the part. -/
theorem State.lossAt_rest (stopped : List AxisId) (s : State) (b : Block) :
    (s.lossAt stopped b).tables = s.tables ∧ (s.lossAt stopped b).monitor = s.monitor ∧
      (s.lossAt stopped b).timebase = s.timebase ∧ (s.lossAt stopped b).micros = s.micros ∧
      (s.lossAt stopped b).pending = s.pending := by
  cases b <;> simp [State.lossAt]

/-- The blocks take a link loss one by one, none twice: each Axis Controller on its axis as the loss found it. -/
theorem State.lossFold {bs : List Block} (hn : bs.Nodup) (stopped : List AxisId) (s : State) :
    let t := bs.foldl (State.lossAt stopped) s
    (∀ a, t.axis a =
      if Block.axisController a ∈ bs then ((s.axis a).linkLost a s.timebase).1 else s.axis a) ∧
    t.notices = (s.offers (bs.flatMap (s.lossNotices stopped))).notices ∧
    t.tables = s.tables ∧ t.monitor = s.monitor ∧ t.timebase = s.timebase ∧ t.micros = s.micros ∧
    t.pending = s.pending := by
  induction bs generalizing s with
  | nil => simp
  | cons b bs ih =>
    obtain ⟨hb, hbs⟩ := List.nodup_cons.1 hn
    obtain ⟨haxis, hnotices, htables, hmonitor, htime, hmicros, hpending⟩ := ih hbs (s.lossAt stopped b)
    obtain ⟨htables', hmonitor', htime', hmicros', hpending'⟩ := s.lossAt_rest stopped b
    have hother {a : AxisId} (ha : Block.axisController a ∈ bs) : (s.lossAt stopped b).axis a = s.axis a := by
      rw [State.lossAt_axis, if_neg]
      rintro rfl
      exact hb ha
    refine ⟨fun a => (haxis a).trans ?_, hnotices.trans ?_, htables.trans htables', hmonitor.trans hmonitor',
      htime.trans htime', hmicros.trans hmicros', hpending.trans hpending'⟩
    · by_cases ha : Block.axisController a ∈ bs
      · rw [if_pos ha, if_pos (List.mem_cons_of_mem b ha), hother ha, htime']
      · rw [if_neg ha, State.lossAt_axis]
        simp only [List.mem_cons, ha, or_false, eq_comm]
    · have hsame : bs.flatMap ((s.lossAt stopped b).lossNotices stopped) = bs.flatMap (s.lossNotices stopped) := by
        refine List.flatMap_congr fun c hc => ?_
        cases c with
        | axisController a =>
          show (((s.lossAt stopped b).axis a).linkLost a (s.lossAt stopped b).timebase).2 = _
          rw [hother hc, htime']
          rfl
        | linkPort => exact congrArg (fun now => [NoticeBody.linkLost stopped now]) htime'
        | windowMonitor | captureLog | orderStart => rfl
      rw [hsame, List.flatMap_cons]
      exact State.offers_notices_of (s.lossAt_notices stopped b) htime' _

/-- All a link loss does beside the Link Port: every Axis Controller takes it on its axis, the notices become UNSENT, and
those of the loss are offered in the order of the command (R188). -/
theorem State.linkLoss_eq (s : State) (order : List Block) :
    let t := s.linkLoss order
    (∀ a, t.axis a = ((s.axis a).linkLost a s.timebase).1) ∧
    (∃ bodies, t.notices = ((s.setNotices s.notices.unsend).offers bodies).notices ∧
      bodies.Perm
        (.linkLost s.moving s.timebase :: AxisId.all.flatMap (fun a => ((s.axis a).linkLost a s.timebase).2))) ∧
    t.tables = s.tables ∧ t.monitor = s.monitor ∧ t.timebase = s.timebase ∧ t.micros = s.micros ∧
    t.pending = s.pending := by
  have hperm := Block.arrange_perm order (show lossBlocks.Nodup by decide)
  let u := (s.setLink s.link.lose).setNotices s.notices.unsend
  obtain ⟨haxis, hnotices, hrest⟩ := State.lossFold (hperm.nodup_iff.2 (by decide)) s.moving u
  refine ⟨fun a => (haxis a).trans (if_pos (hperm.mem_iff.2 (by cases a <;> decide))),
    ⟨(Block.arrange order lossBlocks).flatMap (u.lossNotices s.moving), hnotices.trans ?_, ?_⟩, hrest⟩
  · rw [State.offers_eq, State.offers_eq]
    rfl
  · have hblocks : lossBlocks.flatMap (u.lossNotices s.moving) =
        AxisId.all.flatMap (fun a => ((s.axis a).linkLost a s.timebase).2) ++ [.linkLost s.moving s.timebase] := by
      rw [show lossBlocks = AxisId.all.map Block.axisController ++ [.linkPort] from rfl, List.flatMap_append,
        List.flatMap_map]
      rfl
    exact (hperm.flatMap_right _).trans (hblocks ▸ List.perm_append_singleton _ _)

/-- An axis in motion that a link loss stops: lines off, HELD (R188). -/
theorem Axis.linkLost_inMotion {x : Axis} (h : x.motion.inMotion = true) (a : AxisId) (now : Time) :
    (x.linkLost a now).1 = { x.turnOff now with stall := none, motion := .held, holdPending := false } := by
  have hends : (x.endOperation a now .linkLost).1 =
      { x.turnOff now with stall := none, motion := .held, holdPending := false } := by
    unfold Axis.endOperation
    cases hm : x.motion with
    | moving | homing | jogging => rfl
    | idle | held | waiting | faulted => rw [hm] at h; cases h
  show (x.endOperation a now .linkLost).1.holdQueue = _
  rw [hends]
  exact if_neg (fun hc => by rcases hc.1 with e | e <;> cases e)

/-- An axis that stands still at a link loss keeps its queue from starting (R188). -/
theorem Axis.linkLost_still {x : Axis} (h : x.motion.inMotion = false) (a : AxisId) (now : Time) :
    (x.linkLost a now).1 = x.holdQueue := by
  unfold Axis.linkLost
  rw [Axis.endOperation_still h]

/-- The notice of an axis that a link loss stops (R104, R33, R119). -/
theorem Axis.linkLost_notices (a : AxisId) (now : Time) (x : Axis) :
    (x.linkLost a now).2 =
      match x.motion with
      | .moving o => [.orderDone a o.order.tag .linkLost x.position o.corrections]
      | .homing _ => [.homeFailed a .linkLost]
      | .jogging _ => [.jogEnded a .linkLost]
      | .idle | .held | .waiting | .faulted => [] := by
  refine (x.endOperation_notices a now .linkLost).trans ?_
  cases x.motion <;> rfl

/-- A link loss finds or turns the lines off where they were off or the axis was in motion. -/
theorem Axis.linkLost_off {x : Axis} (h : x.lines = .off ∨ x.motion.inMotion = true) (a : AxisId) (now : Time) :
    (x.linkLost a now).1.lines = .off := by
  cases hm : x.motion.inMotion with
  | true =>
    rw [Axis.linkLost_inMotion hm]
    exact x.turnOff_lines now
  | false =>
    rw [Axis.linkLost_still hm]
    have hl : x.lines = .off := h.resolve_right (by rw [hm]; decide)
    unfold Axis.holdQueue
    split <;> exact hl

/-- Time that passes leaves an axis in motion or standing. -/
theorem Motion.inMotion_advance (m : Motion) (n : Nat) : (m.advance n).inMotion = m.inMotion := by
  cases m <;> rfl

/-- Time that passes leaves a motion state that holds no timers as it is. -/
theorem Motion.advance_still {m : Motion} (h : m.inMotion = false) (n : Nat) : m.advance n = m := by
  cases m with
  | moving | homing | jogging => cases h
  | idle | held | waiting | faulted => rfl

/-- The keepalive's expiry in an OPEN session. -/
theorem State.keepalive_expires {s : State} {k : Timer} {late : Nat} (hk : s.link.keepalive = some k)
    (hrun : s.mayRun (k.wait late) = true) (hopen : s.link.session = .opened) (order : List Block) (st : Straps) :
    exec (.keepaliveExpiry order ⟨late, st⟩) s = .next (((s.runTo k late).linkLoss order).restartAfterLoss st) := by
  show Host.Outcome.next (s.expire s.link.keepalive late _) = _
  rw [hk, State.expire_some hrun, show (s.runTo k late).link.session = .opened from hopen]

/-- Settles O25: `State.linkLoss_eq` with `Axis.linkLost` on every axis, and the reset behind the loss of a RESTART's
reply. -/
theorem keepaliveExpiryIsLinkLoss : Obligations.KeepaliveExpiryIsLinkLoss := by
  intro s order late st k hk hrun hopen v ended
  have hexec := State.keepalive_expires hk hrun hopen order st
  obtain ⟨haxis, ⟨bodies, hnotices, hperm⟩, htables, hmonitor, htime, hmicros, hpending⟩ := v.linkLoss_eq order
  have hlink := v.linkLoss_link order
  have hrestart : (v.linkLoss order).link.restart = s.link.restart := (congrArg LinkPort.restart hlink).trans rfl
  have hv (a : AxisId) : v.axis a = (s.axis a).advance (k.wait late) := s.runTo_axis k late a
  have hmotion (a : AxisId) : (v.axis a).motion.inMotion = (s.axis a).motion.inMotion := by
    rw [hv]
    exact Motion.inMotion_advance _ _
  have hstill {a : AxisId} (h : (s.axis a).motion.inMotion = false) : (v.axis a).motion = (s.axis a).motion := by
    rw [hv]
    exact Motion.advance_still h _
  have hqueue (a : AxisId) : (v.axis a).queue = (s.axis a).queue := by rw [hv]; rfl
  refine ⟨fun hphase => ⟨v.linkLoss order, bodies, ?_, hlink, htables, hmonitor, htime, hmicros, hnotices, ?_,
    fun a => ⟨fun hm => ?_, fun hm hq => ?_, fun hm => ?_⟩⟩, fun hphase =>
      ⟨(v.linkLoss order).resetTo .request st false, hexec.trans ?_, ?_, fun a hlow hoff => ?_⟩⟩
  · rw [hexec]
    unfold State.restartAfterLoss
    rw [hrestart]
    cases e : s.link.restart with
    | replyWaiting => exact absurd e hphase
    | none | replySending => rfl
  · have hmoving : v.moving = AxisId.all.filter (fun a => (s.axis a).motion.inMotion) :=
      List.filter_congr fun a _ => hmotion a
    have hended : (fun a => ((v.axis a).linkLost a v.timebase).2) = ended :=
      funext fun a => Axis.linkLost_notices a v.timebase (v.axis a)
    rw [hmoving, hended] at hperm
    exact hperm
  · rw [haxis, Axis.linkLost_inMotion ((hmotion a).trans hm)]
  · have hs : (s.axis a).motion.inMotion = false := by rcases hm with e | e <;> rw [e] <;> rfl
    rw [haxis, Axis.linkLost_still ((hmotion a).trans hs)]
    exact if_pos ⟨by rw [hstill hs]; exact hm, by rw [hqueue]; exact hq⟩
  · have hs : (s.axis a).motion.inMotion = false := by
      rcases hm with e | e | ⟨e | e, -⟩ <;> rw [e] <;> rfl
    rw [haxis, Axis.linkLost_still ((hmotion a).trans hs)]
    refine if_neg fun hc => ?_
    rw [hstill hs, hqueue] at hc
    rcases hm with e | e | ⟨-, e⟩
    · rw [e] at hc; rcases hc.1 with g | g <;> cases g
    · rw [e] at hc; rcases hc.1 with g | g <;> cases g
    · exact hc.2 e
  · unfold State.restartAfterLoss
    rw [hrestart, hphase]
  · have hreset := (v.linkLoss order).resetTo_resetOf .request st false
    have hpins (a : AxisId) : ((v.linkLoss order).axis a).pins = (s.axis a).pins := by
      rw [haxis, (Axis.acts_linkLost a v.timebase (v.axis a)).pins, hv]
      rfl
    exact { hreset with axes := fun a => by rw [← hpins]; exact hreset.axes a, pending := hpending }
  · have hlines : ((v.linkLoss order).axis a).lines = .off := by
      rw [haxis]
      refine Axis.linkLost_off (hoff.imp (fun h => ?_) (hmotion a).trans) a v.timebase
      rw [hv]
      exact h
    rw [State.resetTo_lockout, Axis.resetLockout_off hlines, hlink, show v.link.lose.resetnLow = false from hlow]
    rfl

end Sys2Proof.Machine
end

section
namespace Sys2Proof.Machine

/-! ### SENSE edges of a homing run that goes on -/

theorem Axis.bringLines_motion (now : Time) (r : Homing) (x : Axis) : (x.bringLines now r).motion = x.motion := by
  unfold Axis.bringLines
  split
  · split
    · exact x.setHigh_motion _
    · unfold Axis.askFor
      split
      · split <;> exact x.turnOff_motion now
      · exact x.turnOff_motion now
  · rfl

/-- A SENSE edge brings a level that is not the present one (R11). -/
theorem Axis.senseLevel_of_edge {x : Axis} {active : Bool} (h : x.senseActive = !active) :
    (active == decide (x.config.senseLevel = .activeHigh)) = !x.pins.sense := by
  rw [Axis.senseActive_eq] at h
  cases active <;> cases hs : x.pins.sense <;> cases hl : decide (x.config.senseLevel = .activeHigh) <;>
    simp [hs, hl] at h ⊢

/-- A SENSE edge of a HOMING axis reaches the run on the new level. -/
theorem State.senseEdge_homing {s : State} {a : AxisId} {h : Homing} (hm : (s.axis a).motion = .homing h)
    {active : Bool} (ha : (s.axis a).senseActive = !active) (order : List Block) :
    exec (.senseEdge a (active == decide ((s.axis a).config.senseLevel = .activeHigh)) order) s =
      .next ((s.setAxis a ((s.axis a).senseLevel (!(s.axis a).pins.sense))).homingSense a h active order) := by
  have hlevel := Axis.senseLevel_of_edge ha
  have haxis (b : Bool) : (s.modifyAxis a (Axis.senseLevel b)).axis a = (s.axis a).senseLevel b := by simp
  have hactive : ((s.axis a).senseLevel (!(s.axis a).pins.sense)).senseActive = active := by
    rw [Axis.senseActive_at, ← hlevel]
    cases active <;> simp
  have hmotion : ((s.axis a).senseLevel (!(s.axis a).pins.sense)).motion = .homing h := hm
  rw [hlevel]
  refine congrArg Host.Outcome.next ((if_neg (Bool.not_ne_self _).symm).trans ?_)
  unfold State.senseChange
  dsimp only
  rw [haxis, hactive, hmotion]
  rfl

/-- A SENSE edge that does not end the run brings its lines to the wanted pattern, and is not captured (R24, R149). -/
theorem State.homingSense_goes {s : State} {a : AxisId} {h : Homing} {active : Bool}
    (he : h.endsAt active (s.axis a).counting.lastDir = false) (order : List Block) :
    let g := h.sensed active (s.axis a).counting.lastDir
    s.homingSense a h active order =
      s.setAxis a (Axis.bringLines s.timebase g { s.axis a with motion := .homing g }) := by
  intro g
  have hgoes : s.take a (Axis.homingGoes s.timebase g) =
      s.setAxis a (Axis.bringLines s.timebase g { s.axis a with motion := .homing g }) := rfl
  have hhoming : ((s.take a (Axis.homingGoes s.timebase g)).axis a).motion.isHoming = true := by
    rw [hgoes, State.setAxis_axis, if_pos rfl, Axis.bringLines_motion]
    rfl
  unfold State.homingSense
  dsimp only
  rw [he, if_neg (by decide), State.logSense_homing hhoming, hgoes]

/-- An edge into the active state ends no run (R27). -/
theorem Homing.endsAt_active (h : Homing) (dir : Option Dir) : h.endsAt true dir = false := by
  simp [Homing.endsAt]

/-- The edge that ends a run (R27). -/
theorem Homing.endsAt_iff (h : Homing) (dir : Option Dir) :
    h.endsAt false dir = true ↔ h.substate = .onSwitch ∧ dir = some h.qualify ∧ h.method = .switchEdge := by
  simp [Homing.endsAt, Homing.qualified]
  tauto

/-- Table 2-3 for an edge into the active state (R26 to R29). -/
theorem Homing.sensed_active (h : Homing) (dir : Option Dir) :
    h.sensed true dir =
      { h with
        substate := if h.substate = .awaitIndex ∧ h.method ≠ .switchIndex then .awaitIndex else .onSwitch } := by
  obtain ⟨m, _, _, _, _, sub, _⟩ := h
  cases sub with
  | seek | onSwitch => rfl
  | awaitIndex => cases m <;> rfl

/-- Table 2-3 for an edge into the inactive state that does not end the run (R26 to R29). -/
theorem Homing.sensed_inactive (h : Homing) (dir : Option Dir) :
    h.sensed false dir =
      if h.substate = .onSwitch then
        if dir = some h.qualify then { h with substate := .awaitIndex }
        else { h with substate := .seek, seekDir := some h.qualify }
      else h := by
  obtain ⟨m, _, q, _, _, sub, _⟩ := h
  cases sub with
  | seek | awaitIndex => rfl
  | onSwitch => simp [Homing.sensed, Homing.qualified]

/-! ### The reference event -/

/-- What the parties to a reference event of an axis leave as it was. -/
structure State.Refers (a : AxisId) (s t : State) : Prop where
  counting : (t.axis a).counting = (s.axis a).counting
  config : (t.axis a).config = (s.axis a).config
  others : ∀ b, b ≠ a → (s.axis b).SameButClaims (t.axis b)
  tables : t.tables = s.tables
  link : t.link = s.link
  timebase : t.timebase = s.timebase
  micros : t.micros = s.micros
  notices : ∃ bodies, t.notices = (s.offers bodies).notices

theorem State.Refers.refl (a : AxisId) (s : State) : s.Refers a s :=
  ⟨rfl, rfl, fun _ _ => Axis.SameButClaims.refl _, rfl, rfl, rfl, rfl, [], rfl⟩

theorem State.Refers.trans {a : AxisId} {s t u : State} (h : s.Refers a t) (k : t.Refers a u) : s.Refers a u := by
  obtain ⟨bs, hbs⟩ := h.notices
  obtain ⟨cs, hcs⟩ := k.notices
  exact ⟨k.counting.trans h.counting, k.config.trans h.config, fun b hb => (h.others b hb).trans (k.others b hb),
    k.tables.trans h.tables, k.link.trans h.link, k.timebase.trans h.timebase, k.micros.trans h.micros, bs ++ cs,
    hcs.trans (State.offers_notices_of hbs h.timebase cs)⟩

/-- An act on the axis of the event that leaves its configuration and its Counting Unit alone. -/
theorem State.Refers.take (a : AxisId) (s : State) {f : Axis → Taken}
    (hc : (f (s.axis a)).1.counting = (s.axis a).counting) (hk : (f (s.axis a)).1.config = (s.axis a).config) :
    s.Refers a (s.take a f) := by
  refine ⟨by simpa using hc, by simpa using hk, fun b hb => ?_, by simp, by simp, by simp, by simp, _,
    s.take_notices a f⟩
  rw [State.take_axis, if_neg hb]
  exact Axis.SameButClaims.refl _

/-- The Window Monitor offers notices, and changes nothing else of the Notice Queue. -/
theorem State.monitorTakes_notices (s : State) (p : Option Int) (ws : Table Window) (pick : Guard → Bool)
    (limits : Nat → Window → Bool) :
    (s.monitorTakes p ws pick limits).notices =
      (s.offers (windowNotices p s.monitor.windows ws ++
        guardNotices s.monitor.guards (evaluate ws pick s.monitor.guards))).notices := by
  refine (State.sends_notices ..).trans ?_
  rw [State.offers_eq, State.offers_eq]
  rfl

theorem State.windowsOf_notices (s : State) (a : AxisId) :
    ∃ bodies, (s.windowsOf a).notices = (s.offers bodies).notices :=
  ⟨_, s.monitorTakes_notices ..⟩

theorem Axis.capture_kept (a : AxisId) (now : Time) (active : Bool) (x : Axis) :
    (x.capture a now active).1 = { x with log := (x.capture a now active).1.log } := by
  unfold Axis.capture
  dsimp only
  generalize (if active = true then Edge.rise else Edge.fall) = e
  split <;> rfl

/-- Each party to a reference event of an axis. -/
theorem State.referenceAct_refers (a : AxisId) (datum : Int) (s : State) (b : Block) :
    s.Refers a (s.referenceAct a datum b) := by
  cases b with
  | axisController c =>
    have hacts := (s.axis a).acts_endHoming a s.timebase datum
    exact State.Refers.take a s hacts.counting hacts.config
  | windowMonitor =>
    obtain ⟨hconfig, hcounting, -⟩ := (s.windowsOf_same a a).controlled
    exact ⟨hcounting, hconfig, fun b _ => s.windowsOf_same a b, by simp [State.referenceAct],
      by simp [State.referenceAct], by simp [State.referenceAct], by simp [State.referenceAct], s.windowsOf_notices a⟩
  | captureLog =>
    have hkept := (s.axis a).capture_kept a s.timebase false
    exact State.Refers.take a s ((congrArg Axis.counting hkept).trans rfl) ((congrArg Axis.config hkept).trans rfl)
  | linkPort => exact State.Refers.refl a s
  | orderStart c =>
    have hacts := (s.axis a).acts_takeStart a s.timebase s.tables (s.monitor.guarded a) (s.monitor.limitAgainst a)
    exact State.Refers.take a s hacts.counting hacts.config

theorem State.Refers.foldl (a : AxisId) (datum : Int) (bs : List Block) (s : State) :
    s.Refers a (bs.foldl (State.referenceAct a datum) s) := by
  induction bs generalizing s with
  | nil => exact State.Refers.refl a s
  | cons b bs ih => exact (s.referenceAct_refers a datum b).trans (ih _)

/-- Acts that do what each party does, as far as the event has left what it leaves alone, do what the parties do. -/
theorem State.foldl_referenceAct {f : State → Block → State} {a : AxisId} {datum : Int} {s : State}
    (hf : ∀ t b, s.Refers a t → f t b = t.referenceAct a datum b) (bs : List Block) :
    bs.foldl f s = bs.foldl (State.referenceAct a datum) s := by
  have hfold (t : State) (ht : s.Refers a t) : bs.foldl f t = bs.foldl (State.referenceAct a datum) t := by
    induction bs generalizing t with
    | nil => rfl
    | cons b bs ih =>
      rw [List.foldl_cons, List.foldl_cons, hf t b ht]
      exact ih _ (ht.trans (t.referenceAct_refers a datum b))
  exact hfold s (State.Refers.refl a s)

theorem referenceBlocks_nodup (a : AxisId) (sense : Bool) (order : List Block) :
    (referenceBlocks a sense order).Nodup := by
  unfold referenceBlocks
  by_cases h : Block.orderStart a ∈ order <;> cases sense <;> simp [h]

theorem mem_referenceBlocks {a : AxisId} {sense : Bool} {order : List Block} {b : Block} :
    b ∈ referenceBlocks a sense order ↔
      b = .axisController a ∨ b = .windowMonitor ∨ b = .captureLog ∧ sense = true ∨
        b = .orderStart a ∧ .orderStart a ∈ order := by
  unfold referenceBlocks
  cases sense <;> by_cases h : Block.orderStart a ∈ order <;> simp [h]

/-- The parties to a reference event in the order of a command, spelled out. -/
theorem arrange_referenceBlocks (a : AxisId) (mark : Bool) (order : List Block) :
    Block.arrange order (referenceBlocks a (!mark) order) =
      (order.filter (fun b => decide (b = .axisController a ∨ b = .windowMonitor ∨ b = .orderStart a ∨
        b = .captureLog ∧ mark = false))).eraseDups ++
      (([.axisController a, .windowMonitor] : List Block) ++ if mark then [] else [Block.captureLog]).filter
        (fun b => !order.contains b) := by
  unfold Block.arrange
  congr 1
  · refine congrArg List.eraseDups (List.filter_congr fun b hb => ?_)
    rw [Bool.eq_iff_iff, List.contains_iff_mem, mem_referenceBlocks, decide_eq_true_iff, Bool.not_eq_true']
    have hstart : b = .orderStart a → Block.orderStart a ∈ order := fun e => e ▸ hb
    tauto
  · unfold referenceBlocks
    rw [List.filter_append]
    by_cases h : Block.orderStart a ∈ order <;> cases mark <;> simp [h]

/-- One party stands in the order of a reference event once: those before it and those behind it are others. -/
theorem exists_referenceBlocks_split {a : AxisId} {sense : Bool} {order : List Block} {c : Block}
    (hc : c ∈ referenceBlocks a sense order) :
    ∃ before behind, Block.arrange order (referenceBlocks a sense order) = before ++ c :: behind ∧
      ∀ b ∈ before ++ behind, b ≠ c ∧ b ∈ referenceBlocks a sense order := by
  have hperm := Block.arrange_perm order (referenceBlocks_nodup a sense order)
  obtain ⟨before, behind, hsplit⟩ := List.append_of_mem (hperm.mem_iff.2 hc)
  have hnodup := hperm.nodup_iff.2 (referenceBlocks_nodup a sense order)
  rw [hsplit, List.nodup_middle, List.nodup_cons] at hnodup
  refine ⟨before, behind, hsplit, fun b hb => ⟨fun e => hnodup.1 (e ▸ hb), hperm.mem_iff.1 ?_⟩⟩
  rw [hsplit]
  simp only [List.mem_append, List.mem_cons] at hb ⊢
  tauto

/-- The state of the part at the gain of reference of a homing run, before its parties take it (R31). -/
def State.gains (s : State) (a : AxisId) (datum : Int) (mark : Bool) : State :=
  s.modifyAxis a (fun x => x.gain datum x.counting.raw mark)

@[simp] theorem State.gains_axis (s : State) (a : AxisId) (datum : Int) (mark : Bool) :
    (s.gains a datum mark).axis a = (s.axis a).gain datum (s.axis a).counting.raw mark := by
  simp [State.gains]

theorem State.referenceEvent_eq (s : State) (a : AxisId) (datum : Int) (sense : Bool) (order : List Block) :
    s.referenceEvent a datum sense order =
      (Block.arrange order (referenceBlocks a sense order)).foldl (State.referenceAct a datum)
        (s.gains a datum (!sense)) := rfl

/-- A party other than the Window Monitor leaves the slots alone. -/
theorem State.foldl_monitor {bs : List Block} (h : ∀ b ∈ bs, b ≠ .windowMonitor) (a : AxisId) (datum : Int)
    (s : State) : (bs.foldl (State.referenceAct a datum) s).monitor = s.monitor := by
  induction bs generalizing s with
  | nil => rfl
  | cons b bs ih =>
    rw [List.foldl_cons, ih fun c hc => h c (List.mem_cons_of_mem b hc)]
    cases b with
    | windowMonitor => exact absurd rfl (h .windowMonitor List.mem_cons_self)
    | axisController | captureLog | linkPort | orderStart =>
      simp [State.referenceAct, State.logSense, State.startHead]

/-- A reference event tests the windows of the axis at the position gained (R31, R126). -/
theorem State.referenceEvent_windows (s : State) (a : AxisId) (datum : Int) (sense : Bool) (order : List Block) :
    (s.referenceEvent a datum sense order).monitor.windows =
      retest a ((s.gains a datum (!sense)).axis a) s.monitor.windows := by
  obtain ⟨before, behind, hsplit, hother⟩ := exists_referenceBlocks_split (order := order)
    (mem_referenceBlocks.2 (.inr (.inl rfl)) : Block.windowMonitor ∈ referenceBlocks a sense order)
  have hrefers := State.Refers.foldl a datum before (s.gains a datum (!sense))
  rw [State.referenceEvent_eq, hsplit, List.foldl_append, List.foldl_cons,
    State.foldl_monitor fun b hb => (hother b (List.mem_append_right _ hb)).1]
  refine (State.windowsOf_windows ..).trans ?_
  rw [State.foldl_monitor fun b hb => (hother b (List.mem_append_left _ hb)).1]
  exact retest_congr (Axis.position_congr hrefers.config (by rw [hrefers.counting])) hrefers.config a _

/-- What the parties to a reference event other than the Axis Controller leave of the axis. -/
structure Axis.Stands (x y : Axis) : Prop where
  motion : y.motion = x.motion
  holdPending : y.holdPending = x.holdPending
  lines : y.lines = x.lines
  queue : y.queue = x.queue

theorem Axis.Stands.refl (x : Axis) : x.Stands x := ⟨rfl, rfl, rfl, rfl⟩

theorem Axis.Stands.trans {x y z : Axis} (h : x.Stands y) (k : y.Stands z) : x.Stands z :=
  ⟨k.motion.trans h.motion, k.holdPending.trans h.holdPending, k.lines.trans h.lines, k.queue.trans h.queue⟩

theorem State.foldl_stands {bs : List Block} (h : ∀ b ∈ bs, b = .windowMonitor ∨ b = .captureLog) (a : AxisId)
    (datum : Int) (s : State) : (s.axis a).Stands ((bs.foldl (State.referenceAct a datum) s).axis a) := by
  induction bs generalizing s with
  | nil => exact Axis.Stands.refl _
  | cons b bs ih =>
    refine Axis.Stands.trans ?_ (ih (fun c hc => h c (List.mem_cons_of_mem b hc)) (s.referenceAct a datum b))
    rcases h b List.mem_cons_self with rfl | rfl
    · show (s.axis a).Stands ((s.windowsOf a).axis a)
      rw [show (s.windowsOf a).axis a = _ from s.windowsOf_same a a]
      exact ⟨rfl, rfl, rfl, rfl⟩
    · show (s.axis a).Stands ((s.logSense a false).axis a)
      unfold State.logSense
      rw [State.take_axis, if_pos rfl, Axis.capture_kept]
      exact ⟨rfl, rfl, rfl, rfl⟩

/-- A reference event ends the run: lines off, IDLE, or HELD with the flag 1, where no start joins it (R31). -/
theorem State.referenceEvent_ends {order : List Block} {a : AxisId} (h : .orderStart a ∉ order) (s : State)
    (datum : Int) (sense : Bool) :
    let y := (s.referenceEvent a datum sense order).axis a
    y.motion = (if (s.axis a).holdPending then .held else .idle) ∧ y.holdPending = false ∧ y.lines = .off ∧
      y.queue = (s.axis a).queue := by
  obtain ⟨before, behind, hsplit, hother⟩ := exists_referenceBlocks_split (order := order)
    (mem_referenceBlocks.2 (.inl rfl) : Block.axisController a ∈ referenceBlocks a sense order)
  have hstands : ∀ b ∈ before ++ behind, b = .windowMonitor ∨ b = .captureLog := fun b hb => by
    have := (hother b hb).1
    have := mem_referenceBlocks.1 (hother b hb).2
    tauto
  have hbefore := State.foldl_stands (fun b hb => hstands b (List.mem_append_left _ hb)) a datum
    (s.gains a datum (!sense))
  generalize hu : before.foldl (State.referenceAct a datum) (s.gains a datum (!sense)) = u at hbefore
  have hbehind := State.foldl_stands (fun b hb => hstands b (List.mem_append_right _ hb)) a datum
    (u.referenceAct a datum (.axisController a))
  have hends : (u.referenceAct a datum (.axisController a)).axis a = ((u.axis a).endHoming a u.timebase datum).1 := by
    simp [State.referenceAct]
  rw [State.gains_axis] at hbefore
  rw [hends] at hbehind
  rw [State.referenceEvent_eq, hsplit, List.foldl_append, List.foldl_cons, hu]
  refine ⟨hbehind.motion.trans ?_, hbehind.holdPending, hbehind.lines.trans ((u.axis a).turnOff_lines _),
    hbehind.queue.trans (((u.axis a).turnOff_queue _).trans hbefore.queue)⟩
  show (if (u.axis a).holdPending then Motion.held else .idle) = _
  rw [hbefore.holdPending]
  rfl

/-- The position of the end of a run is a matter of configuration and shift. -/
theorem Axis.datumPosition_congr {x y : Axis} (hc : y.config = x.config) (hs : y.counting.shift = x.counting.shift)
    (datum : Int) : y.datumPosition datum = x.datumPosition datum := by
  rw [Axis.datumPosition_eq, Axis.datumPosition_eq, hc, hs]

/-- A reference event reports HOMED with the position gained (R31). -/
theorem State.referenceEvent_homed (s : State) (a : AxisId) (datum : Int) (sense : Bool) (order : List Block) :
    ∃ bodies, NoticeBody.homed a ((s.axis a).datumPosition datum) ∈ bodies ∧
      (s.referenceEvent a datum sense order).notices = (s.offers bodies).notices := by
  obtain ⟨before, behind, hsplit, -⟩ := exists_referenceBlocks_split (order := order)
    (mem_referenceBlocks.2 (.inl rfl) : Block.axisController a ∈ referenceBlocks a sense order)
  have hbefore := State.Refers.foldl a datum before (s.gains a datum (!sense))
  generalize hu : before.foldl (State.referenceAct a datum) (s.gains a datum (!sense)) = u at hbefore
  have hbehind := State.Refers.foldl a datum behind (u.referenceAct a datum (.axisController a))
  obtain ⟨bs, hbs⟩ := hbefore.notices
  obtain ⟨cs, hcs⟩ := hbehind.notices
  have hposition : (u.axis a).datumPosition datum = (s.axis a).datumPosition datum := by
    refine Axis.datumPosition_congr ?_ ?_ datum
    · rw [hbefore.config, State.gains_axis]
      rfl
    · rw [hbefore.counting, State.gains_axis]
      rfl
  have hnotices : u.notices = (s.offers bs).notices :=
    hbs.trans (State.offers_notices_of (s := s) (t := s.gains a datum (!sense)) (bs := []) rfl rfl bs)
  have htime : u.timebase = s.timebase := hbefore.timebase
  have hhomed : (u.referenceAct a datum (.axisController a)).notices =
      (s.offers (bs ++ [.homed a ((s.axis a).datumPosition datum)])).notices := by
    rw [← hposition, ← State.offers_notices_of hnotices htime]
    exact State.take_notices ..
  refine ⟨(bs ++ [.homed a ((s.axis a).datumPosition datum)]) ++ cs, by simp, ?_⟩
  rw [State.referenceEvent_eq, hsplit, List.foldl_append, List.foldl_cons, hu, hcs]
  exact State.offers_notices_of hhomed ((State.referenceAct_refers a datum u _).timebase.trans htime) cs

end Sys2Proof.Machine
end

section
namespace Sys2Proof.Machine

/-- The gain of reference at the end of a homing run, spelled out (R31). -/
theorem State.gains_eq (s : State) (a : AxisId) (datum : Int) (mark : Bool) :
    s.gains a datum mark =
      s.setAxis a { s.axis a with
        counting :=
          { (s.axis a).counting with
            base := BitVec.ofInt 32 datum - (s.axis a).counting.raw
            reference := .referenced
            baseline :=
              if mark = true ∧ (s.axis a).config.indexSpacing ≠ 0 then some (s.axis a).counting.raw else none } } := by
  show s.setAxis a _ = _
  simp [Axis.gain]

theorem State.referenceEvent_refers (s : State) (a : AxisId) (datum : Int) (sense : Bool) (order : List Block) :
    (s.gains a datum (!sense)).Refers a (s.referenceEvent a datum sense order) :=
  State.Refers.foldl ..

/-- The Capture Log takes the SENSE edge of a reference event where the run has ended before it (R151). -/
theorem State.logSense_fall (s : State) (a : AxisId) :
    let x := s.axis a
    s.logSense a false =
      if x.motion.isHoming = false ∧ (x.log.mode = .fall ∨ x.log.mode = .both) then
        (s.setAxis a { x with
          log :=
            { x.log with
              ring :=
                (if x.log.ring.length < 8 then x.log.ring else x.log.ring.tail) ++
                  [{ number := x.log.nextNumber
                     edge := .fall
                     raw := x.counting.raw
                     position := x.position
                     time := s.timebase
                     orderTag := x.motion.active.map (fun o => o.order.tag)
                     overwrote := decide (8 ≤ x.log.ring.length) }]
              nextNumber := if 65535 ≤ x.log.nextNumber then 1 else x.log.nextNumber + 1 } }).offers
          (if x.log.ring = [] then [.captureWaiting a] else [])
      else s := by
  intro x
  have hmode : x.log.mode.records (edgeOf false) = true ↔ x.log.mode = .fall ∨ x.log.mode = .both := by
    rw [CaptureMode.records_iff]
    simp [or_comm]
  by_cases hm : x.motion.isHoming = false
  · by_cases hr : x.log.mode.records (edgeOf false) = true
    · rw [if_pos ⟨hm, hmode.1 hr⟩]
      exact State.take_eq (Axis.capture_records hm hr a s.timebase)
    · rw [if_neg fun h => hr (hmode.2 h.2)]
      exact (State.take_eq (Axis.capture_passes (Bool.eq_false_iff.2 hr) a s.timebase)).trans (s.setAxis_self a)
  · rw [if_neg fun h => hm h.1]
    exact State.logSense_homing (Bool.not_eq_false _ ▸ hm) false

/-! ### SENSE edges by the table -/

/-- A SENSE edge that does not end the run leaves the axis with its lines brought to the wanted pattern (R24, R26). -/
theorem State.senseEdge_goes {s : State} {a : AxisId} {h g : Homing} (hm : (s.axis a).motion = .homing h)
    {active : Bool} (ha : (s.axis a).senseActive = !active)
    (he : h.endsAt active (s.axis a).counting.lastDir = false)
    (hg : h.sensed active (s.axis a).counting.lastDir = g) (order : List Block) :
    exec (.senseEdge a (active == decide ((s.axis a).config.senseLevel = .activeHigh)) order) s =
      .next (s.setAxis a (Axis.bringLines s.timebase g
        { (s.axis a).senseLevel (!(s.axis a).pins.sense) with motion := .homing g })) := by
  subst hg
  refine (State.senseEdge_homing hm ha order).trans (congrArg Host.Outcome.next ?_)
  generalize hy : (s.axis a).senseLevel (!(s.axis a).pins.sense) = y
  have haxis : (s.setAxis a y).axis a = y := by simp
  have hdir : y.counting.lastDir = (s.axis a).counting.lastDir := hy ▸ rfl
  rw [State.homingSense_goes (by rw [haxis, hdir]; exact he), haxis, hdir, State.setAxis_setAxis]
  rfl

/-- A SENSE edge that ends the run is its reference event (R27). -/
theorem State.senseEdge_ends {s : State} {a : AxisId} {h : Homing} (hm : (s.axis a).motion = .homing h)
    (ha : (s.axis a).senseActive = true) (he : h.endsAt false (s.axis a).counting.lastDir = true)
    (order : List Block) :
    exec (.senseEdge a (false == decide ((s.axis a).config.senseLevel = .activeHigh)) order) s =
      .next ((s.setAxis a ((s.axis a).senseLevel (!(s.axis a).pins.sense))).referenceEvent a h.datum true order) := by
  refine (State.senseEdge_homing (active := false) hm ha order).trans (congrArg Host.Outcome.next (if_pos ?_))
  rw [State.setAxis_axis, if_pos rfl]
  exact he

/-! ### Index marks of a homing run -/

theorem State.homingMark_ends {s : State} {a : AxisId} {h : Homing} {dir : Option Dir}
    (hm : (s.axis a).motion = .homing h) (hs : h.substate = .awaitIndex) (hd : dir = some h.qualify)
    (order : List Block) :
    s.homingMark a dir order = s.referenceEvent a h.datum false order := by
  unfold State.homingMark
  rw [hm]
  dsimp only
  rw [hs]
  exact if_pos (decide_eq_true hd)

theorem State.homingMark_passes {s : State} {a : AxisId} {h : Homing} {dir : Option Dir}
    (hm : (s.axis a).motion = .homing h) (hn : h.substate ≠ .awaitIndex ∨ dir ≠ some h.qualify) (order : List Block) :
    s.homingMark a dir order = s := by
  unfold State.homingMark
  rw [hm]
  dsimp only
  cases hs : h.substate with
  | seek | onSwitch => rfl
  | awaitIndex => exact if_neg (by simpa [Homing.qualified, hs] using hn)

theorem State.indexCheck_unreferenced {s : State} {a : AxisId} (hr : (s.axis a).counting.reference = .unreferenced) :
    s.indexCheck a = s :=
  if_pos (.inr hr)

/-- What an edge of a pin leaves of the axis of a homing run that goes on. -/
structure Axis.RunsOn (x y : Axis) : Prop where
  config : y.config = x.config
  motion : y.motion = x.motion
  holdPending : y.holdPending = x.holdPending
  queue : y.queue = x.queue
  reference : y.counting.reference = x.counting.reference
  shift : y.counting.shift = x.counting.shift

theorem Axis.RunsOn.refl (x : Axis) : x.RunsOn x := ⟨rfl, rfl, rfl, rfl, rfl, rfl⟩

/-- A quadrature edge of an UNREFERENCED axis that is not MOVING. -/
theorem State.countEdge_runsOn {s : State} {a : AxisId} (hm : ∀ o, (s.axis a).motion ≠ .moving o)
    (hr : (s.axis a).counting.reference = .unreferenced) (l : EncoderLevels) (order : List Block) :
    ∃ y, s.countEdge a l order = s.setAxis a y ∧ (s.axis a).RunsOn y := by
  cases h : leadsOf (s.axis a).pins.encoder l with
  | none => exact ⟨_, State.countEdge_none h order, rfl, rfl, rfl, rfl, rfl, rfl⟩
  | some leads =>
    exact ⟨_, State.countEdge_unreferenced h hr order, rfl, Axis.counted_standing hm l _, rfl, rfl, rfl, rfl⟩

/-- An index mark of an UNREFERENCED axis, with or without an edge of the same instant, is for homing alone (R7). -/
theorem State.indexMark_homes {s : State} {a : AxisId} {edge : Option EncoderLevels} {order : List Block}
    (hr : ((s.sameInstantEdge a edge order).axis a).counting.reference = .unreferenced) :
    exec (.indexMark a edge order) s =
      .next ((s.sameInstantEdge a edge order).homingMark a (s.axis a).counting.lastDir order) := by
  refine congrArg Host.Outcome.next ?_
  rw [State.indexCheck_unreferenced hr]

/-- An index mark of an UNREFERENCED axis that is HOMING (R26 to R29), behind an edge that leaves the run as it is. -/
theorem State.indexMark_homing {s : State} {a : AxisId} {h : Homing} (hm : (s.axis a).motion = .homing h)
    (hr : (s.axis a).counting.reference = .unreferenced) {edge : Option EncoderLevels} {order : List Block} {y : Axis}
    (hedge : s.sameInstantEdge a edge order = s.setAxis a y) (hy : (s.axis a).RunsOn y) :
    (h.substate = .awaitIndex → (s.axis a).counting.lastDir = some h.qualify →
      exec (.indexMark a edge order) s = .next ((s.setAxis a y).referenceEvent a h.datum false order)) ∧
    (h.substate ≠ .awaitIndex ∨ (s.axis a).counting.lastDir ≠ some h.qualify →
      exec (.indexMark a edge order) s = .next (s.setAxis a y)) := by
  have hreference : ((s.setAxis a y).axis a).counting.reference = .unreferenced := by
    simpa using hy.reference.trans hr
  have hmotion : ((s.setAxis a y).axis a).motion = .homing h := by
    simpa using hy.motion.trans hm
  have hexec := State.indexMark_homes (hedge ▸ hreference)
  rw [hedge] at hexec
  exact ⟨fun hs hd => hexec.trans (congrArg _ (State.homingMark_ends hmotion hs hd order)),
    fun hn => hexec.trans (congrArg _ (State.homingMark_passes hmotion hn order))⟩

/-! ### The table -/

theorem Homing.wanted_eq (h : Homing) :
    (∀ d, h.substate = .seek → h.seekDir = some d → h.wanted = (d, h.fast)) ∧
    (h.substate = .onSwitch → h.wanted = (h.qualify, false)) ∧
    (h.substate = .awaitIndex → h.wanted = (h.qualify, false)) := by
  unfold Homing.wanted
  refine ⟨fun d hs hd => ?_, fun hs => ?_, fun hs => ?_⟩
  · rw [hs, hd]
    rfl
  · rw [hs]
  · rw [hs]

/-- Settles O35: `Homing.sensed`, `Homing.endsAt` and `State.referenceEvent` case by case. -/
theorem homingRunsFollowTheirTable : Obligations.HomingRunsFollowTheirTable := by
  refine ⟨Homing.wanted_eq, ?_, ?_, fun s a h late hm hrun => State.homingLimit_expires hm hrun⟩
  · intro x now h d high brought
    refine ⟨fun hw => Axis.bringLines_watched hw now h, fun hd => ⟨fun e hl => Axis.bringLines_same hd hl now,
      fun e hl => Axis.bringLines_opposite hd hl now, fun hl hp => ?_, fun hl hp => ?_⟩⟩
    · refine (Axis.bringLines_off hd hl now).trans ((if_pos hp).trans ?_)
      show ({ x with lines := .run d high, stall := x.newStall } : Axis) = _
      rw [Axis.newStall_eq, hd]
      simp
    · exact (Axis.bringLines_off hd hl now).trans (if_neg (Bool.eq_false_iff.1 hp))
  · intro s a h order hm x toggled sense runs position gained act parties ends moves
    have hends (i : Instr) (mark : Bool) (y : Axis) (hy : x.RunsOn y)
        (hi : exec i s = .next ((s.setAxis a y).referenceEvent a h.datum (!mark) order)) :
        ends i (s.setAxis a y) mark := by
      set u := s.setAxis a y with hu
      have hua : u.axis a = y := by simp [hu]
      have hgained : gained u mark = u.gains a h.datum mark := by
        rw [State.gains_eq, hua, hy.config]
        simp only [gained, hua]
      have hrefers := u.referenceEvent_refers a h.datum (!mark) order
      rw [Bool.not_not, ← hgained] at hrefers
      have hposition (t : State) (ht : (gained u mark).Refers a t) : (t.axis a).datumPosition h.datum = position := by
        rw [Axis.datumPosition_congr (x := x), Axis.datumPosition_eq]
        · rw [ht.config, hgained, State.gains_axis, hua]
          exact hy.config
        · rw [ht.counting, hgained, State.gains_axis, hua]
          exact hy.shift
      have hact (t : State) (b : Block) (ht : (gained u mark).Refers a t) : act t b = t.referenceAct a h.datum b := by
        cases b with
        | axisController c =>
          refine Eq.trans ?_ (congrArg (fun p => (t.setAxis a _).offers [.homed a p]) (hposition t ht).symm)
          rfl
        | captureLog => exact (t.logSense_fall a).symm
        | windowMonitor | orderStart | linkPort => rfl
      refine ⟨_, hi, ?_, hrefers.counting, ?_, fun ho => ?_, fun b hb => ?_, hrefers.tables, hrefers.link,
        hrefers.timebase, hrefers.micros, ?_⟩
      · rw [State.foldl_referenceAct hact, State.referenceEvent_eq, arrange_referenceBlocks, Bool.not_not, ← hgained]
      · rw [State.referenceEvent_windows, Bool.not_not, ← hgained]
      · obtain ⟨hmotion, hhold, hlines, hqueue⟩ := State.referenceEvent_ends ho u h.datum (!mark)
        rw [hua] at hmotion hqueue
        exact ⟨hmotion.trans (by rw [hy.holdPending]), hhold, hlines, hqueue.trans hy.queue⟩
      · have hother : (gained u mark).axis b = u.axis b := by simp [gained, hb]
        rw [← hother]
        exact hrefers.others b hb
      · obtain ⟨bodies, hhomed, hnotices⟩ := u.referenceEvent_homed a h.datum (!mark) order
        refine ⟨bodies, ?_, hnotices⟩
        rwa [hua, Axis.datumPosition_congr hy.config hy.shift, Axis.datumPosition_eq] at hhomed
    have hruns {active : Bool} {sub : HomingSubstate} {seek : Option Dir} (ha : x.senseActive = !active)
        (he : h.endsAt active x.counting.lastDir = false)
        (hg : h.sensed active x.counting.lastDir = { h with substate := sub, seekDir := seek }) :
        runs active sub seek :=
      State.senseEdge_goes hm ha he hg order
    have hactive := h.endsAt_active x.counting.lastDir
    have hstays (hn : ¬ (h.substate = .onSwitch ∧ moves ∧ h.method = .switchEdge)) :
        h.endsAt false x.counting.lastDir = false :=
      Bool.eq_false_iff.2 (mt (h.endsAt_iff _).1 hn)
    have hmarks (edge : Option EncoderLevels) (y : Axis) (hedge : s.sameInstantEdge a edge order = s.setAxis a y)
        (hy : x.RunsOn y) (hr : x.counting.reference = .unreferenced) :
        (h.substate = .awaitIndex → moves → ends (.indexMark a edge order) (s.setAxis a y) true) ∧
        (h.substate ≠ .awaitIndex ∨ ¬ moves → exec (.indexMark a edge order) s = .next (s.setAxis a y)) := by
      obtain ⟨hmark, hpass⟩ := State.indexMark_homing hm hr hedge hy
      exact ⟨fun hs hd => hends _ true y hy (hmark hs hd), hpass⟩
    refine ⟨congrArg Host.Outcome.next (if_pos rfl), fun ha => ?_, fun ha => ?_, fun hr => ?_, fun t => rfl⟩
    · refine ⟨fun hs => hruns ha hactive ?_, fun hs => hruns ha hactive ?_, fun hs hmeth => hruns ha hactive ?_,
        fun hs hmeth => hruns ha hactive ?_⟩
      · rw [h.sensed_active, if_neg (by simp [hs])]
      · rw [h.sensed_active, if_neg (by simp [hs])]
      · rw [h.sensed_active, if_neg (by simp [hmeth])]
      · rw [h.sensed_active, if_pos ⟨hs, hmeth⟩]
    · refine ⟨fun hs => hruns ha (hstays (by simp [hs])) ?_, fun hs hd hmeth => ?_,
        fun hs hd hmeth => hruns ha (hstays (by simp [hmeth])) ?_, fun hs hd => hruns ha (hstays (by simp [hd])) ?_,
        fun hs => hruns ha (hstays (by simp [hs])) ?_⟩
      · rw [h.sensed_inactive, if_neg (by simp [hs]), ← hs]
      · exact hends _ false toggled ⟨rfl, rfl, rfl, rfl, rfl, rfl⟩
          (State.senseEdge_ends hm ha ((h.endsAt_iff _).2 ⟨hs, hd, hmeth⟩) order)
      · rw [h.sensed_inactive, if_pos hs, if_pos hd]
      · rw [h.sensed_inactive, if_pos hs, if_neg hd]
      · rw [h.sensed_inactive, if_neg (by simp [hs]), ← hs]
    · obtain ⟨hmark, hpass⟩ := hmarks none x (s.setAxis_self a).symm (Axis.RunsOn.refl x) hr
      rw [s.setAxis_self a] at hmark hpass
      refine ⟨hmark, hpass, fun l => ?_⟩
      have hstands (o : ActiveOrder) (ho : x.motion = .moving o) : False := Motion.noConfusion (hm.symm.trans ho)
      obtain ⟨y, hedge, hy⟩ := State.countEdge_runsOn hstands hr l order
      exact ⟨_, congrArg Host.Outcome.next hedge, hmarks (some l) y hedge hy hr⟩

end Sys2Proof.Machine
end

section
namespace Sys2Proof.Machine

/-! ### Field areas out of order -/

/-- A field and its value as they stand in a field area (R195). -/
def fieldBytes (e : FieldId × List Byte) : List Byte := BitVec.ofNat 8 e.1.code :: BitVec.ofNat 8 e.1.size :: e.2

/-- Whether a field may stand in a field area behind fields that have been read: it is a field of the request, its value
has its length, and it is no second occurrence unless it is a list. -/
def ReqCode.Fits (c : ReqCode) (seen : List FieldId) (e : FieldId × List Byte) : Prop :=
  c.hasField e.1 = true ∧ e.2.length = e.1.size ∧ ¬ (e.1.isList = false ∧ e.1 ∈ seen)

/-- Whether fields stand in order behind fields that have been read, the last of these first. -/
def ReqCode.InOrder (c : ReqCode) : List FieldId → List (FieldId × List Byte) → Prop
  | _, [] => True
  | seen, e :: es => c.Fits seen e ∧ c.InOrder (e.1 :: seen) es

/-- Whether an id and what follows it begin no field that fits (R178 step 1). -/
def ReqCode.BadAt (c : ReqCode) (seen : List FieldId) (id : Byte) (rest : List Byte) : Prop :=
  (∀ f, c.hasField f = true → f.code ≠ id.toNat) ∨
    ∃ f, c.hasField f = true ∧ f.code = id.toNat ∧
      (rest = [] ∨ (∃ len value, rest = len :: value ∧ (len.toNat ≠ f.size ∨ value.length < f.size)) ∨
        f.isList = false ∧ f ∈ seen)

theorem FieldId.code_byte (f : FieldId) : (BitVec.ofNat 8 f.code).toNat = f.code := by
  cases f <;> rfl

theorem FieldId.size_byte (f : FieldId) : (BitVec.ofNat 8 f.size).toNat = f.size := by
  cases f <;> rfl

theorem Parsed.cons_bad {p : Parsed} {f : Field} {n : Nat} : p.cons f = .bad n ↔ p = .bad n := by
  cases p <;> simp [Parsed.cons]

/-- Fields stand in order where each is a field of the request with the length of its value, and none that is not a list
stands behind itself. -/
theorem ReqCode.inOrder_iff {c : ReqCode} {seen : List FieldId} {es : List (FieldId × List Byte)} :
    c.InOrder seen es ↔
      (∀ e ∈ es, c.hasField e.1 = true ∧ e.2.length = e.1.size) ∧
        ((es.map (·.1)).filter (fun f => !f.isList)).Nodup ∧ ∀ e ∈ es, e.1.isList = false → e.1 ∉ seen := by
  rw [List.Nodup, List.pairwise_filter, List.pairwise_map]
  induction es generalizing seen with
  | nil => simp [ReqCode.InOrder]
  | cons e es ih =>
    have hbehind : (∀ d ∈ es, d.1.isList = false → d.1 ∉ e.1 :: seen) ↔
        (∀ d ∈ es, (!e.1.isList) = true → (!d.1.isList) = true → e.1 ≠ d.1) ∧
          ∀ d ∈ es, d.1.isList = false → d.1 ∉ seen := by
      grind
    rw [ReqCode.InOrder, ih, hbehind, List.pairwise_cons, List.forall_mem_cons, List.forall_mem_cons]
    unfold ReqCode.Fits
    tauto

/-- Bytes that begin no field that fits are bad. -/
theorem readFields_badAt {c : ReqCode} {seen : List FieldId} {id : Byte} {rest : List Byte} (h : c.BadAt seen id rest)
    (n : Nat) : readFields c n seen (id :: rest) = .bad id.toNat := by
  cases n with
  | zero => rfl
  | succ n =>
    unfold readFields
    rcases h with h | ⟨f, hf, hc, h⟩
    · rw [ReqCode.fieldOf_none.2 h]
    · rw [ReqCode.fieldOf_some.2 ⟨hf, hc⟩]
      rcases h with rfl | ⟨len, value, rfl, h⟩ | h
      · rfl
      · exact if_pos (by tauto)
      · cases rest with
        | nil => rfl
        | cons len value => exact if_pos (by tauto)

/-- A field that fits is read, and what stands behind it is read with the field seen. -/
theorem readFields_fits {c : ReqCode} {seen : List FieldId} {e : FieldId × List Byte} (h : c.Fits seen e) (n : Nat)
    (rest : List Byte) :
    readFields c (n + 1) seen (fieldBytes e ++ rest) =
      (readFields c n (e.1 :: seen) rest).cons (e.1, e.1.decode e.2) := by
  obtain ⟨hf, hlen, hseen⟩ := h
  show readFields c (n + 1) seen (BitVec.ofNat 8 e.1.code :: BitVec.ofNat 8 e.1.size :: (e.2 ++ rest)) = _
  conv_lhs => unfold readFields
  rw [ReqCode.fieldOf_some.2 ⟨hf, e.1.code_byte.symm⟩]
  refine (if_neg ?_).trans ?_
  · rw [e.1.size_byte, List.length_append, hlen]
    rintro (hn | hn | hn)
    · exact hn rfl
    · omega
    · exact hseen hn
  · rw [← hlen, List.drop_left, List.take_left]

/-- Bytes begin a field that fits, or are bad. -/
theorem ReqCode.badAt_or_fits (c : ReqCode) (seen : List FieldId) (id : Byte) (rest : List Byte) :
    c.BadAt seen id rest ∨ ∃ e body, c.Fits seen e ∧ id :: rest = fieldBytes e ++ body := by
  by_cases h : c.BadAt seen id rest
  · exact .inl h
  · right
    cases hf : c.fieldOf id with
    | none => exact absurd (.inl (ReqCode.fieldOf_none.1 hf)) h
    | some f =>
      obtain ⟨hhas, hcode⟩ := ReqCode.fieldOf_some.1 hf
      have hgood (hbad : _) : False := h (.inr ⟨f, hhas, hcode, hbad⟩)
      cases rest with
      | nil => exact (hgood (.inl rfl)).elim
      | cons len value =>
        have hlen : len.toNat = f.size ∧ f.size ≤ value.length := by
          by_contra hn
          exact hgood (.inr (.inl ⟨len, value, rfl, by omega⟩))
        refine ⟨(f, value.take f.size), value.drop f.size,
          ⟨hhas, List.length_take_of_le hlen.2, fun hseen => hgood (.inr (.inr hseen))⟩, ?_⟩
        have hid : id = BitVec.ofNat 8 f.code := BitVec.eq_of_toNat_eq (by rw [f.code_byte, hcode])
        have hsize : len = BitVec.ofNat 8 f.size := BitVec.eq_of_toNat_eq (by rw [f.size_byte, hlen.1])
        simp [fieldBytes, hid, hsize]

/-- A field area is bad where, behind fields in order, bytes begin no field that fits. -/
theorem readFields_bad_iff {c : ReqCode} {n : Nat} {seen : List FieldId} {area : List Byte} (hn : area.length ≤ n)
    {k : Nat} :
    readFields c n seen area = .bad k ↔
      ∃ before id rest, area = before.flatMap fieldBytes ++ id :: rest ∧ k = id.toNat ∧ c.InOrder seen before ∧
        c.BadAt ((before.map (·.1)).reverse ++ seen) id rest := by
  induction n generalizing seen area with
  | zero =>
    obtain rfl := List.eq_nil_of_length_eq_zero (Nat.le_zero.1 hn)
    simp [readFields]
  | succ n ih =>
    constructor
    · cases area with
      | nil => simp [readFields]
      | cons id rest =>
        intro hbad
        rcases c.badAt_or_fits seen id rest with hat | ⟨e, body, hfits, harea⟩
        · rw [readFields_badAt hat] at hbad
          exact ⟨[], id, rest, rfl, (Parsed.bad.inj hbad).symm, trivial, hat⟩
        · rw [harea] at hn hbad ⊢
          rw [readFields_fits hfits, Parsed.cons_bad, ih (by simp [fieldBytes] at hn; omega)] at hbad
          obtain ⟨before, id', rest', rfl, hid, horder, hat⟩ := hbad
          exact ⟨e :: before, id', rest', by simp, hid, ⟨hfits, horder⟩, by simpa using hat⟩
    · rintro ⟨before, id, rest, rfl, rfl, horder, hat⟩
      cases before with
      | nil => exact readFields_badAt hat _
      | cons e before =>
        obtain ⟨hfits, horder⟩ := horder
        rw [List.flatMap_cons, List.append_assoc] at hn ⊢
        rw [readFields_fits hfits, Parsed.cons_bad, ih (by simp [fieldBytes] at hn ⊢; omega)]
        exact ⟨before, id, rest, rfl, rfl, horder, by simpa using hat⟩

end Sys2Proof.Machine
end

section
namespace Sys2Proof.Machine

/-- The area of a request is bad at the first bytes that begin no field that fits, behind fields in order. -/
theorem ReqCode.read_bad_iff {c : ReqCode} {area : List Byte} {n : Nat} :
    c.read area = .bad n ↔
      ∃ (before : List (FieldId × List Byte)) (id : Byte) (rest : List Byte),
        area = before.flatMap fieldBytes ++ id :: rest ∧ n = id.toNat ∧
        (∀ e ∈ before, c.hasField e.1 = true ∧ e.2.length = e.1.size) ∧
        ((before.map (·.1)).filter (fun f => !f.isList)).Nodup ∧ c.BadAt (before.map (·.1)) id rest := by
  have hat (before : List (FieldId × List Byte)) (id : Byte) (rest : List Byte) :
      c.BadAt ((before.map (·.1)).reverse ++ []) id rest ↔ c.BadAt (before.map (·.1)) id rest := by
    simp [ReqCode.BadAt]
  unfold ReqCode.read
  rw [readFields_bad_iff le_rfl]
  simp only [hat, ReqCode.inOrder_iff, List.not_mem_nil, not_false_eq_true, implies_true, and_true, and_assoc]

/-! ### The checks of step 1 of R178 -/

/-- The execution of a request of a kind, by the rule of the kind. -/
theorem ReqCode.exec_command (c : ReqCode) :
    ∃ own : List Field → State → Answer × State, ∀ s, exec c.command s = .next (s.execute c own) := by
  cases c <;> exact ⟨_, fun _ => rfl⟩

/-- A request that the general checks refuse is answered so, and nothing else changes (R178). -/
theorem ReqCode.exec_refused {c : ReqCode} {s : State} {r : Request} {ans : Answer}
    (hdue : s.dueRequest (some c) = some r) (hcheck : c.check s.link.session r.area = .refused ans) :
    exec c.command s = .next (s.answered r ans) := by
  obtain ⟨own, hown⟩ := c.exec_command
  have hserve : (s.setLink s.link.popIntake).serve c r.area own = (ans, s.setLink s.link.popIntake) := by
    unfold State.serve
    rw [show (s.setLink s.link.popIntake).link.session = s.link.session from rfl, hcheck]
  rw [hown]
  unfold State.execute
  rw [hdue]
  exact congrArg (fun x => Host.Outcome.next (State.reply r.tag x)) hserve

theorem ReqCode.check_bad {c : ReqCode} {area : List Byte} {id : Nat} (h : c.read area = .bad id) (ses : Session) :
    c.check ses area = .refused (.detail .badFormat id) := by
  unfold ReqCode.check
  rw [h]

theorem ReqCode.check_missing {c : ReqCode} {area : List Byte} {fs : List Field} {f : FieldId}
    (h : c.read area = .good fs) (hf : (c.requiredNow fs).find? (fun f => !carries fs f) = some f) (ses : Session) :
    c.check ses area = .refused (.detail .badFormat f.code) := by
  unfold ReqCode.check
  rw [h]
  dsimp only
  rw [hf]

theorem ReqCode.check_presence {c : ReqCode} {area : List Byte} {fs : List Field} {f : FieldId}
    (h : c.read area = .good fs) (hall : ∀ g ∈ c.requiredNow fs, carries fs g = true)
    (hf : c.presence fs = some f) (ses : Session) : c.check ses area = .refused (.detail .badFormat f.code) := by
  unfold ReqCode.check
  rw [h]
  dsimp only
  rw [find_carries_none.2 hall, hf]

/-- SEEK-DIR is required of a HOME with a switch method, besides what is required whatever the others hold (R21). -/
theorem ReqCode.mem_requiredNow {c : ReqCode} {fs : List Field} {f : FieldId} :
    f ∈ c.requiredNow fs ↔
      f ∈ c.required ∨
        c = .home ∧ f = .seekDir ∧ (fieldValue fs .method = some 0 ∨ fieldValue fs .method = some 1) := by
  unfold ReqCode.requiredNow
  split
  next h =>
    obtain ⟨rfl, hm⟩ := h
    simp [ReqCode.required, hm]
    tauto
  next h => tauto

theorem ReqCode.requiredNow_of_ne_home {c : ReqCode} (h : c ≠ .home) (fs : List Field) :
    c.requiredNow fs = c.required :=
  if_neg fun hc => h hc.1

/-- The required fields stand in increasing id. -/
theorem ReqCode.requiredNow_increasing (c : ReqCode) (fs : List Field) :
    (c.requiredNow fs).Pairwise (fun f g => f.code < g.code) := by
  unfold ReqCode.requiredNow
  split
  · decide
  · cases c <;> decide

/-- In fields of increasing id, the first with a property is the one with the lowest id. -/
theorem find_lowest {l : List FieldId} (hl : l.Pairwise (fun f g => f.code < g.code)) {p : FieldId → Bool} {f : FieldId}
    (hf : f ∈ l) (hp : p f = true) (hlow : ∀ g ∈ l, p g = true → f.code ≤ g.code) : l.find? p = some f := by
  induction l with
  | nil => exact absurd hf List.not_mem_nil
  | cons g l ih =>
    obtain ⟨hg, hl⟩ := List.pairwise_cons.1 hl
    rcases List.mem_cons.1 hf with rfl | hfl
    · exact List.find?_cons_of_pos hp
    · have hpg : ¬ p g = true := fun h =>
        absurd (hlow g List.mem_cons_self h) (Nat.not_le.2 (hg f hfl))
      rw [List.find?_cons_of_neg hpg]
      exact ih hl hfl fun d hd => hlow d (List.mem_cons_of_mem g hd)

/-- Settles O18: the bytes that `readFields` stops at, and step 1 of `ReqCode.check`. -/
theorem formatErrorsAreAnswered : Obligations.FormatErrorsAreAnswered := by
  refine ⟨fun c area n => ReqCode.read_bad_iff, ?_, ?_⟩
  · intro c s r hdue badFormat
    have hbad {id : Nat} (h : c.check s.link.session r.area = .refused (.detail .badFormat id)) : badFormat id :=
      ReqCode.exec_refused hdue h
    refine ⟨fun id h => hbad (ReqCode.check_bad h _), fun fs hread => ?_⟩
    intro needed
    refine ⟨fun f hn hf hlow => hbad (ReqCode.check_missing hread ?_ _), fun hall hc => ?_, fun hall hc => ?_⟩
    · refine find_lowest (c.requiredNow_increasing fs) (ReqCode.mem_requiredNow.2 hn) (by simp [hf]) fun g hg hp => ?_
      exact hlow g (ReqCode.mem_requiredNow.1 hg) (by simpa using hp)
    · subst hc
      rw [← ReqCode.requiredNow_of_ne_home (by decide) fs] at hall
      refine ⟨fun hs ht => hbad (ReqCode.check_presence hread hall (f := .target) ?_ _),
        fun hs ht => hbad (ReqCode.check_presence hread hall (f := .station) ?_ _),
        fun hs ht hp => hbad (ReqCode.check_presence hread hall (f := .profile) ?_ _)⟩
      · simp [ReqCode.presence, hs, ht]
      · simp [ReqCode.presence, hs, ht]
      · simp [ReqCode.presence, hs, ht, hp]
    · subst hc
      rw [← ReqCode.requiredNow_of_ne_home (by decide) fs] at hall
      refine ⟨fun ho ha => hbad (ReqCode.check_presence hread hall (f := .all) ?_ _),
        fun ho ha => hbad (ReqCode.check_presence hread hall (f := .orderTag) ?_ _)⟩
      · simp [ReqCode.presence, ho, ha]
      · simp [ReqCode.presence, ho, ha]
  · intro s r hdue
    show Host.Outcome.next s.executeUnknown = _
    unfold State.executeUnknown
    rw [hdue]
    rfl

end Sys2Proof.Machine
end

section
namespace Sys2Proof.Machine

/-! ### The capacities of an axis -/

/-- The capacities of one axis: its move queue, whose tags are distinct (R57), and its capture ring (R152). -/
structure Axis.CapacityOk (x : Axis) : Prop where
  queue : x.moveQueue.length ≤ 8
  tags : (x.moveQueue.map (·.tag)).Nodup
  ring : x.log.ring.length ≤ 8

/-- The capacities of the part are those of its axes and those of its stores. -/
theorem State.capacitiesOk_iff {s : State} :
    s.CapacitiesOk ↔
      s.All Axis.CapacityOk ∧ s.tables.stations.length ≤ 384 ∧ Table.wf s.tables.stations ∧
        Table.wf s.tables.profiles ∧ Table.wf s.monitor.windows ∧ Table.wf s.monitor.guards :=
  ⟨fun h => ⟨fun a => ⟨h.queues a, h.tags a, h.rings a⟩, h.pool, h.stores⟩,
    fun ⟨ha, hp, hs⟩ => ⟨fun a => (ha a).queue, fun a => (ha a).tags, fun a => (ha a).ring, hp, hs⟩⟩

/-- Orders that leave the move queue and records that leave the ring keep the capacities. -/
theorem Axis.CapacityOk.fewer {x y : Axis} (h : x.CapacityOk) (hq : y.moveQueue.Sublist x.moveQueue)
    (hr : y.log.ring.length ≤ x.log.ring.length) : y.CapacityOk :=
  ⟨hq.length_le.trans h.queue, (hq.map _).nodup h.tags, hr.trans h.ring⟩

/-- An Axis Controller takes no order into the move queue and leaves the Capture Log alone. -/
theorem Axis.Acts.capacityOk {x y : Axis} (h : x.Acts y) (hx : x.CapacityOk) : y.CapacityOk :=
  hx.fewer h.orders (by rw [h.log])

theorem Axis.capacityOk_sameOrders {x y : Axis} (h : x.CapacityOk) (hq : y.moveQueue = x.moveQueue)
    (hr : y.log.ring = x.log.ring) : y.CapacityOk := h.fewer (by rw [hq]) (by rw [hr])

theorem Motion.active_advance (m : Motion) (n : Nat) : (m.advance n).active.map (·.order) = m.active.map (·.order) := by
  cases m <;> rfl

theorem Axis.moveQueue_advance (n : Nat) (x : Axis) : (x.advance n).moveQueue = x.moveQueue := by
  rw [Axis.moveQueue_eq, Axis.moveQueue_eq]
  exact congrArg (fun o => o.toList ++ x.queue) (x.motion.active_advance n)

/-- Counting Unit, pins, claims in flight and time are no part of the capacities. -/
theorem Axis.steady_capacityOk : Axis.Steady Axis.CapacityOk where
  claims := fun _ _ h => Axis.capacityOk_sameOrders h rfl rfl
  faultClaims := fun _ _ h => Axis.capacityOk_sameOrders h rfl rfl
  counting := fun _ _ h => Axis.capacityOk_sameOrders h rfl rfl
  pins := fun _ _ h => Axis.capacityOk_sameOrders h rfl rfl
  advance := fun n x h => Axis.capacityOk_sameOrders h (x.moveQueue_advance n) rfl

theorem Axis.moveQueue_resetTo (low : Bool) (x : Axis) : (x.resetTo low).moveQueue = [] := rfl

theorem Axis.capacityOk_resetTo (low : Bool) (x : Axis) : (x.resetTo low).CapacityOk := by
  refine ⟨?_, ?_, Nat.zero_le 8⟩ <;> simp [Axis.moveQueue_resetTo]

theorem Axis.capacityOk_configure {x : Axis} (c : AxisConfig) (h : x.CapacityOk) : (x.configure c).CapacityOk := by
  unfold Axis.configure
  dsimp only
  split <;> exact Axis.capacityOk_sameOrders h rfl rfl

theorem Axis.capacityOk_clearFault {x : Axis} (hf : x.motion.isFaulted = true) (h : x.CapacityOk) :
    x.clearFault.CapacityOk := by
  refine Axis.capacityOk_sameOrders h ?_ rfl
  rw [Axis.moveQueue_eq, Axis.moveQueue_eq, Motion.isFaulted_iff.1 hf]
  rfl

/-- What the checks of ENQUEUE know of the move queue: it has room, and the tag is new to it (R60). -/
theorem Axis.room_of_accepts {x : Axis} {a : AxisId} {t : TableStore} {o : Order}
    (h : Axis.refusesOrder a t o x = none) : x.moveQueue.length < 8 ∧ ∀ e ∈ x.moveQueue, e.tag ≠ o.tag := by
  unfold Axis.refusesOrder at h
  split at h
  · cases h
  split at h
  · cases h
  split at h
  · cases h
  rename_i hroom htag
  exact ⟨Nat.not_le.1 hroom, by simpa using htag⟩

theorem Axis.moveQueue_append (x : Axis) (o : Order) :
    ({ x with queue := x.queue ++ [o] } : Axis).moveQueue = x.moveQueue ++ [o] := by
  rw [Axis.moveQueue_eq, Axis.moveQueue_eq, List.append_assoc]

theorem Axis.capacityOk_enqueue {x : Axis} {a : AxisId} {t : TableStore} {o : Order}
    (hr : Axis.refusesOrder a t o x = none) (h : x.CapacityOk) :
    ({ x with queue := x.queue ++ [o] } : Axis).CapacityOk := by
  obtain ⟨hroom, hnew⟩ := Axis.room_of_accepts hr
  refine ⟨?_, ?_, h.ring⟩
  · rw [Axis.moveQueue_append, List.length_append]
    exact hroom
  · rw [Axis.moveQueue_append, List.map_append, List.nodup_append]
    refine ⟨h.tags, List.nodup_singleton _, ?_⟩
    simp only [List.mem_map, List.map_cons, List.map_nil, List.mem_singleton]
    rintro _ ⟨e, he, rfl⟩ _ rfl
    exact hnew e he

theorem Axis.acts_hold (x : Axis) : x.Acts x.hold := by
  unfold Axis.hold
  split
  · exact x.acts_motion .held false x.stall rfl
  · exact x.acts_motion .held false x.stall rfl
  · exact Axis.acts_of rfl rfl rfl rfl rfl rfl (List.Sublist.refl _)
  · exact Axis.acts_of rfl rfl rfl rfl rfl rfl (List.Sublist.refl _)
  all_goals exact Axis.Acts.refl x

theorem Axis.acts_release (x : Axis) : x.Acts x.release := by
  unfold Axis.release
  split
  · exact x.acts_motion .idle false x.stall rfl
  · exact Axis.acts_of rfl rfl rfl rfl rfl rfl (List.Sublist.refl _)

/-- A record that enters the ring makes the oldest of a full ring leave it (R152). -/
theorem length_ringWith {ring : List Capture} (h : ring.length ≤ 8) (r : Capture) : (ringWith ring r).length ≤ 8 := by
  unfold ringWith
  split <;> simp only [List.length_append, List.length_tail, List.length_singleton, Config.ring] at * <;> omega

theorem Axis.capacityOk_capture {a : AxisId} {now : Time} {b : Bool} {x : Axis} (h : x.CapacityOk) :
    (x.capture a now b).1.CapacityOk := by
  unfold Axis.capture
  generalize (if b = true then Edge.rise else Edge.fall) = e
  dsimp only
  split
  · exact ⟨h.queue, h.tags, length_ringWith h.ring _⟩
  · exact h

theorem Axis.capacityOk_stalls {a : AxisId} {now : Time} {x : Axis} (h : x.CapacityOk) :
    (x.stalls a now).1.CapacityOk := by
  rw [Axis.stalls_eq]
  exact Axis.steady_capacityOk.counting _ _
    (((x.acts_turnOff now).trans (Axis.acts_motion _ .faulted false none rfl)).capacityOk h)

/-- Each operation on an axis keeps the capacities of the axis: all but ENQUEUE and a capture take orders and records
away. -/
theorem Axis.kept_capacityOk : Axis.Kept Axis.CapacityOk where
  steady := Axis.steady_capacityOk
  reset := fun x low => x.capacityOk_resetTo low
  configure := fun _ _ _ => Axis.capacityOk_configure _
  clearFault := fun _ => Axis.capacityOk_clearFault
  homingGoes := fun x now r => (x.acts_homingGoes now r).capacityOk
  enqueue := fun _ _ _ _ => Axis.capacityOk_enqueue
  cancelTag := fun x a now n => (x.acts_cancelTag a now n).capacityOk
  cancelAll := fun x a now => (x.acts_cancelAll a now).capacityOk
  hold := fun x => x.acts_hold.capacityOk
  release := fun x => x.acts_release.capacityOk
  stop := fun x a now f => (x.acts_stop a now f).capacityOk
  jogNone := fun x a now => (x.acts_jogNone a now).capacityOk
  jog := fun x now d sp n _ _ => (x.acts_jog now d sp n).capacityOk
  setCapture := fun _ _ h => Axis.capacityOk_sameOrders h rfl rfl
  readCaptures := fun x n h => h.fewer (List.Sublist.refl _) (x.log.ring.drop_sublist n).length_le
  capture := fun _ _ _ _ => Axis.capacityOk_capture
  holdQueue := fun x => x.acts_holdQueue.capacityOk
  linkLost := fun x a now => (x.acts_linkLost a now).capacityOk
  countEvent := fun x => x.acts_countEvent.capacityOk
  positionMoved := fun a now l d x => (x.acts_positionMoved a now l d).capacityOk
  endHoming := fun a now d x => (x.acts_endHoming a now d).capacityOk
  stalls := fun _ _ _ => Axis.capacityOk_stalls
  failHoming := fun x a now why => (x.acts_failHoming a now why).capacityOk
  endOrder := fun x a now o why _ => (x.acts_endOrder a now o why).capacityOk
  judgeRest := fun x a now l o _ hm _ =>
    (x.acts_judgeRest a now l o (by rw [Axis.runs, hm]; rfl)).capacityOk
  lockoutExpired := fun x a now l => (x.acts_lockoutExpired a now l).capacityOk
  endJog := fun x a now why => (x.acts_endJog a now why).capacityOk
  takeStart := fun x a now t g l => (x.acts_takeStart a now t g l).capacityOk
  takeStop := fun x a now => (x.acts_takeStop a now).capacityOk
  takeLimit := fun x a now d => (x.acts_takeLimit a now d).capacityOk
  takeRelease := fun x => x.acts_takeRelease.capacityOk
  takeFault := fun x a now k => (x.acts_takeFault a now k).capacityOk


end Sys2Proof.Machine
end

section
namespace Sys2Proof.Machine

/-! ### Writes to a keyed store -/

/-- What one act does to a keyed store: entries change under their keys, the store is emptied, an entry is written under
a key with a property, or an entry is removed. -/
inductive Table.Writes {α : Type} (p : Nat → Prop) (old new : Table α) : Prop
  | keeps (h : new.map (·.1) = old.map (·.1))
  | clears (h : new = [])
  | puts (k : Nat) (v : α) (hk : p k) (h : new = Table.put k v old)
  | drops (k : Nat) (h : new = Table.drop k old)

theorem Table.Writes.refl {α : Type} (p : Nat → Prop) (t : Table α) : Table.Writes p t t := .keeps rfl

/-- The form of a store is a property of its keys. -/
theorem Table.wf_iff_keys {α : Type} {t : Table α} : Table.wf t ↔ (t.map (·.1)).Pairwise (· < ·) :=
  List.pairwise_map.symm

theorem Table.Writes.wf {α : Type} {p : Nat → Prop} {old new : Table α} (h : Table.Writes p old new)
    (ho : Table.wf old) : Table.wf new := by
  cases h with
  | keeps h => rw [Table.wf_iff_keys, h]; exact Table.wf_iff_keys.1 ho
  | clears h => rw [h]; exact List.Pairwise.nil
  | puts k v _ h => rw [h]; exact Table.wf_put k v old ho
  | drops k h => rw [h]; exact Table.wf_drop k old ho

/-- A property of the keys that are written stays a property of all keys. -/
theorem Table.Writes.keys {α : Type} {p q : Nat → Prop} {old new : Table α} (h : Table.Writes p old new)
    (hp : ∀ k, p k → q k) (ho : ∀ e ∈ old, q e.1) : ∀ e ∈ new, q e.1 := by
  cases h with
  | keeps h =>
    intro e he
    have hk : e.1 ∈ old.map (·.1) := h ▸ List.mem_map_of_mem he
    obtain ⟨d, hd, hde⟩ := List.mem_map.1 hk
    exact hde ▸ ho d hd
  | clears h => subst h; intro e he; cases he
  | puts k v hk h =>
    subst h
    intro e he
    rcases Table.mem_put k v old e he with rfl | he
    · exact hp k hk
    · exact ho e he
  | drops k h =>
    subst h
    exact fun e he => ho e (List.mem_of_mem_filter he)

theorem Table.length_put_le {α : Type} (k : Nat) (v : α) (t : Table α) : (Table.put k v t).length ≤ t.length + 1 := by
  induction t with
  | nil => simp [Table.put]
  | cons e t ih =>
    obtain ⟨j, w⟩ := e
    simp only [Table.put]
    split
    · simp
    split
    · simp
    · simpa using ih

/-- An entry written over an existing one takes its place. -/
theorem Table.length_put_held {α : Type} {t : Table α} (h : Table.wf t) {k : Nat} (hk : (Table.find k t).isSome = true)
    (v : α) : (Table.put k v t).length = t.length := by
  induction t with
  | nil => cases hk
  | cons e t ih =>
    obtain ⟨j, w⟩ := e
    obtain ⟨hlow, ht⟩ := List.pairwise_cons.1 h
    obtain ⟨u, hu⟩ := Option.isSome_iff_exists.1 hk
    have hjk : j ≤ k := by
      rcases List.mem_cons.1 (Table.mem_of_find hu) with he | he
      · exact (Prod.mk.inj he).1.ge
      · exact (hlow _ he).le
    simp only [Table.put, Nat.not_lt.2 hjk, if_false]
    split
    · rfl
    · rename_i hne
      have hkt : (Table.find k t).isSome = true := by simpa [Table.find, Ne.symm hne] using hk
      simp [ih ht hkt]

/-- A store stays within a capacity when a new key is written only where there is room. -/
theorem Table.Writes.length_le {α : Type} {p : Nat → Prop} {old new : Table α} {n : Nat} (h : Table.Writes p old new)
    (hp : ∀ k, p k → (Table.find k old).isSome = true ∨ old.length < n) (hw : Table.wf old) (ho : old.length ≤ n) :
    new.length ≤ n := by
  cases h with
  | keeps h =>
    have hlen : new.length = old.length := by simpa using congrArg List.length h
    exact hlen ▸ ho
  | clears h => simp [h]
  | puts k v hk h =>
    rw [h]
    rcases hp k hk with hheld | hroom
    · rwa [Table.length_put_held hw hheld]
    · exact (Table.length_put_le k v old).trans hroom
  | drops k h => rw [h]; exact (List.length_filter_le _ _).trans ho

/-! ### Writes to the stores of the part -/

/-- What one act does to the Table Store: a station is written under the number of an axis, a new one while the pool has
room (R41, R43); a profile entry under its number (R48). -/
structure TableStore.Writes (t u : TableStore) : Prop where
  stations : Table.Writes
    (fun k => (1 ≤ k % 1000 ∧ k / 1000 ≤ 3) ∧ ((Table.find k t.stations).isSome = true ∨ t.stations.length < 384))
    t.stations u.stations
  profiles : Table.Writes (· ≤ 15) t.profiles u.profiles

/-- What one act does to the slots of the Window Monitor (R124, R131). -/
structure WindowMonitor.Writes (w v : WindowMonitor) : Prop where
  windows : Table.Writes (fun k => 1 ≤ k ∧ k ≤ 48) w.windows v.windows
  guards : Table.Writes (fun k => 1 ≤ k ∧ k ≤ 12) w.guards v.guards

/-- What one command does to the keyed stores. -/
def State.Stores (s t : State) : Prop := s.tables.Writes t.tables ∧ s.monitor.Writes t.monitor

/-- Two states with the same Table Store and the same numbers of windows and guards. -/
def State.SameSlots (s t : State) : Prop :=
  t.tables = s.tables ∧ t.monitor.windows.map (·.1) = s.monitor.windows.map (·.1) ∧
    t.monitor.guards.map (·.1) = s.monitor.guards.map (·.1)

theorem State.SameSlots.stores {s t : State} (h : s.SameSlots t) : s.Stores t := by
  obtain ⟨ht, hw, hg⟩ := h
  exact ⟨ht ▸ ⟨.refl _ _, .refl _ _⟩, ⟨.keeps hw, .keeps hg⟩⟩

theorem State.SameSlots.refl (s : State) : s.SameSlots s := ⟨rfl, rfl, rfl⟩

theorem State.SameSlots.trans {s t u : State} (h : s.SameSlots t) (k : t.SameSlots u) : s.SameSlots u := by
  obtain ⟨ht, hw, hg⟩ := h
  obtain ⟨kt, kw, kg⟩ := k
  exact ⟨kt.trans ht, kw.trans hw, kg.trans hg⟩

theorem State.SameSlots.of_eq {s t : State} (ht : t.tables = s.tables) (hm : t.monitor = s.monitor) : s.SameSlots t :=
  ⟨ht, by rw [hm], by rw [hm]⟩

theorem State.sameSlots_take (s : State) (a : AxisId) (f : Axis → Taken) : s.SameSlots (s.take a f) :=
  .of_eq (by simp) (by simp)

theorem keys_evaluate (ws : Table Window) (pick : Guard → Bool) (gs : Table Guard) :
    (evaluate ws pick gs).map (·.1) = gs.map (·.1) := by
  rw [evaluate_eq, List.map_map]
  rfl

theorem keys_retest (a : AxisId) (x : Axis) (ws : Table Window) : (retest a x ws).map (·.1) = ws.map (·.1) := by
  rw [retest_eq, List.map_map]
  rfl

/-- The Window Monitor that tests windows again and evaluates guards has the same windows and guards. -/
theorem State.sameSlots_windowsOf (s : State) (a : AxisId) : s.SameSlots (s.windowsOf a) := by
  refine ⟨by simp, ?_, ?_⟩
  · rw [State.windowsOf_windows, keys_retest]
  · unfold State.windowsOf
    rw [State.monitorTakes_monitor]
    dsimp only
    exact keys_evaluate ..

theorem State.sameSlots_loseReference (s : State) (a : AxisId) : s.SameSlots (s.loseReference a) := by
  unfold State.loseReference
  split
  · exact .refl s
  · exact State.sameSlots_windowsOf (s.modifyAxis a _) a

theorem State.sameSlots_raise (s : State) (a : AxisId) (k : FaultKind) : s.SameSlots (s.raise a k) :=
  (s.sameSlots_take a (Axis.recordFault a s.timebase k)).trans (State.sameSlots_loseReference _ a)

theorem State.sameSlots_raiseLine (s : State) (a : AxisId) : s.SameSlots (s.raiseLine a) :=
  State.sameSlots_raise (s.modifyAxis a _) a .line

theorem State.sameSlots_dropGained (s : State) (a : AxisId) : s.SameSlots (s.dropGained a) := by
  unfold State.dropGained
  split
  iterate 3 exact s.sameSlots_loseReference a
  all_goals exact .refl s

theorem State.sameSlots_indexCheck (s : State) (a : AxisId) : s.SameSlots (s.indexCheck a) := by
  unfold State.indexCheck
  dsimp only
  split
  · exact .refl s
  split
  · exact .refl s
  split
  · exact .refl s
  · exact s.sameSlots_raise a .slip

theorem State.sameSlots_controllerMoves (s : State) (a : AxisId) (d : Dir) : s.SameSlots (s.controllerMoves a d) :=
  s.sameSlots_take a _

theorem State.sameSlots_countEdge (s : State) (a : AxisId) (l : EncoderLevels) (order : List Block) :
    s.SameSlots (s.countEdge a l order) := by
  unfold State.countEdge
  dsimp only
  split
  · exact .refl s
  split
  · exact .refl s
  split
  · exact State.sameSlots_raise (s.setAxis a _) a .overrange
  split
  · exact (State.sameSlots_controllerMoves (s.setAxis a _) a _).trans (State.sameSlots_windowsOf _ a)
  · exact (State.sameSlots_windowsOf (s.setAxis a _) a).trans (State.sameSlots_controllerMoves _ a _)

/-! ### Homing and link loss -/

theorem State.sameSlots_foldl {f : State → Block → State} (hf : ∀ s b, State.SameSlots s (f s b)) (bs : List Block)
    (s : State) : s.SameSlots (bs.foldl f s) := by
  induction bs generalizing s with
  | nil => exact .refl s
  | cons b bs ih => exact (hf s b).trans (ih (f s b))

theorem State.sameSlots_referenceAct (a : AxisId) (datum : Int) (s : State) (b : Block) :
    s.SameSlots (s.referenceAct a datum b) := by
  cases b
  · exact s.sameSlots_take a _
  · exact s.sameSlots_windowsOf a
  · exact s.sameSlots_take a _
  · exact .refl s
  · exact s.sameSlots_take a _

theorem State.sameSlots_referenceEvent (s : State) (a : AxisId) (datum : Int) (sense : Bool) (order : List Block) :
    s.SameSlots (s.referenceEvent a datum sense order) :=
  State.sameSlots_foldl (State.sameSlots_referenceAct a datum) _ (s.modifyAxis a _)

theorem State.sameSlots_homingSense (s : State) (a : AxisId) (h : Homing) (active : Bool) (order : List Block) :
    s.SameSlots (s.homingSense a h active order) := by
  unfold State.homingSense
  dsimp only
  split
  · exact s.sameSlots_referenceEvent ..
  · exact (s.sameSlots_take a _).trans (State.sameSlots_take _ a _)

theorem State.sameSlots_homingMark (s : State) (a : AxisId) (dir : Option Dir) (order : List Block) :
    s.SameSlots (s.homingMark a dir order) := by
  unfold State.homingMark
  split
  · split
    · split
      · exact s.sameSlots_referenceEvent ..
      · exact .refl s
    all_goals exact .refl s
  all_goals exact .refl s

theorem State.sameSlots_lossAt (stopped : List AxisId) (s : State) (b : Block) : s.SameSlots (s.lossAt stopped b) := by
  cases b
  · exact s.sameSlots_take _ _
  all_goals exact .refl s

theorem State.sameSlots_linkLoss (s : State) (order : List Block) : s.SameSlots (s.linkLoss order) :=
  State.sameSlots_foldl (State.sameSlots_lossAt s.moving) _ ((s.setLink s.link.lose).setNotices s.notices.unsend)

/-! ### Requests -/

/-- What the execution of a request does to the stores is what its rule does under the checks it has passed. -/
theorem State.stores_execute {s : State} {c : ReqCode} {own : List Field → State → Answer × State}
    (h : ∀ r fs, Serves s c r fs → s.Stores (own fs (s.setLink s.link.popIntake)).2) : s.Stores (s.execute c own) := by
  unfold State.execute
  split
  · exact (State.SameSlots.refl s).stores
  rename_i r hdue
  unfold State.serve
  split
  · exact (State.SameSlots.refl s).stores
  · rename_i fs hcheck
    exact h r fs ⟨hdue, hcheck⟩

theorem State.stores_execute_rule {c : ReqCode} {own : List Field → State → Answer × State}
    (h : ∀ fs u, State.Stores u (own fs u).2) (s : State) : s.Stores (s.execute c own) :=
  State.stores_execute fun _ fs _ => h fs (s.setLink s.link.popIntake)

theorem State.sameSlots_execute {c : ReqCode} {own : List Field → State → Answer × State}
    (h : ∀ fs u, State.SameSlots u (own fs u).2) (s : State) : s.SameSlots (s.execute c own) := by
  unfold State.execute
  split
  · exact .refl s
  unfold State.serve
  split
  · exact .refl s
  · exact h _ (s.setLink s.link.popIntake)

theorem homeRule_sameSlots (fs : List Field) (s : State) : s.SameSlots (homeRule fs s).2 := by
  unfold homeRule
  dsimp only
  split
  · exact .refl s
  split
  · exact .refl s
  split
  · exact .refl s
  split
  · exact .refl s
  · exact (s.sameSlots_take _ _).trans (State.sameSlots_loseReference _ _)

theorem State.sameSlots_configure (s : State) (a : AxisId) (c : AxisConfig) : s.SameSlots (s.configure a c) := by
  have hdrop : s.SameSlots
      (if (s.axis a).config.dropsReference c then (s.modifyAxis a (Axis.configure c)).loseReference a
        else s.modifyAxis a (Axis.configure c)) := by
    split
    · exact State.sameSlots_loseReference (s.modifyAxis a _) a
    · exact .refl s
  unfold State.configure
  dsimp only
  split
  · exact hdrop.trans (State.sameSlots_raiseLine _ a)
  · exact hdrop

theorem setAxisRule_sameSlots (fs : List Field) (s : State) : s.SameSlots (setAxisRule fs s).2 := by
  unfold setAxisRule
  dsimp only
  split
  · exact s.sameSlots_configure ..
  · exact .refl s

theorem teachRule_sameSlots (fs : List Field) (s : State) : s.SameSlots (teachRule fs s).2 := by
  unfold teachRule
  dsimp only
  split
  · exact .refl s
  split
  · exact .refl s
  split
  · exact .refl s
  · exact State.sameSlots_windowsOf (s.modifyAxis _ _) _

theorem State.sameSlots_shift (s : State) (a : AxisId) (v : Int) : s.SameSlots (s.shift a v) := by
  unfold State.shift
  dsimp only
  split
  · exact State.sameSlots_windowsOf (s.setAxis a _) a
  · exact .refl s

theorem shiftRule_sameSlots (fs : List Field) (s : State) : s.SameSlots (shiftRule fs s).2 := by
  unfold shiftRule
  dsimp only
  split
  · exact .refl s
  split
  · exact .refl s
  split
  · exact .refl s
  · exact s.sameSlots_shift ..

theorem cancelRule_sameSlots (fs : List Field) (s : State) : s.SameSlots (cancelRule fs s).2 := by
  unfold cancelRule
  dsimp only
  split
  · exact s.sameSlots_take _ _
  split
  · exact s.sameSlots_take _ _
  · exact .refl s

theorem State.sameSlots_jog (s : State) (a : AxisId) (dir : Option Dir) (sp : Speed) (n : Nat) :
    s.SameSlots (s.jog a dir sp n) := by
  cases dir
  · exact s.sameSlots_take a _
  · exact .refl s

theorem jogRule_sameSlots (fs : List Field) (s : State) : s.SameSlots (jogRule fs s).2 := by
  unfold jogRule
  dsimp only
  split
  · exact .refl s
  split
  · exact .refl s
  split
  · exact .refl s
  split
  · exact .refl s
  · exact s.sameSlots_jog ..

theorem State.sameSlots_senseChange (s : State) (a : AxisId) (high : Bool) (order : List Block) :
    s.SameSlots (s.senseChange a high order) := by
  have hhome : s.SameSlots ((s.modifyAxis a (Axis.senseLevel high)).homeAtEdge order) := by
    unfold State.homeAtEdge
    split
    · exact State.sameSlots_execute homeRule_sameSlots (s.modifyAxis a _)
    · exact .refl s
  unfold State.senseChange
  dsimp only
  split
  · exact State.sameSlots_homingSense (s.modifyAxis a _) ..
  all_goals exact hhome.trans (State.sameSlots_take _ a _)


/-! ### Requests that write the stores -/

/-- A required field of a served request lies in its range. -/
theorem Serves.inside {s : State} {c : ReqCode} {r : Request} {fs : List Field} (h : Serves s c r fs) {f : FieldId}
    (hf : f ∈ c.required) {lo hi : Int} (hr : ∀ v, f.inRange c v = within lo hi v) :
    lo ≤ fieldInt fs f ∧ fieldInt fs f ≤ hi := by
  obtain ⟨v, -, hv, hin⟩ := h.required hf
  rw [hv]
  exact within_iff.1 (hr v ▸ hin)

theorem Serves.natInside {s : State} {c : ReqCode} {r : Request} {fs : List Field} (h : Serves s c r fs) {f : FieldId}
    (hf : f ∈ c.required) {lo hi : Nat} (hr : ∀ v, f.inRange c v = within lo hi v) :
    lo ≤ fieldNat fs f ∧ fieldNat fs f ≤ hi := by
  obtain ⟨hlo, hhi⟩ := h.inside hf hr
  unfold fieldNat
  omega

theorem AxisId.num_le (a : AxisId) : a.num ≤ 3 := by cases a <;> decide

/-- A key of the Station Pool holds the axis in its thousands, the station number below (R41). -/
theorem stationKey_parts (a : AxisId) {n : Nat} (h : n ≤ 999) :
    stationKey a n % 1000 = n ∧ stationKey a n / 1000 = a.num := by
  unfold stationKey
  omega

theorem putStationRule_stores {s : State} {r : Request} {fs : List Field} (h : Serves s .putStation r fs) :
    s.Stores (putStationRule fs (s.setLink s.link.popIntake)).2 := by
  have hnumber := h.natInside (f := .station) (lo := 1) (hi := 999) (by decide) (fun _ => rfl)
  obtain ⟨hmod, hdiv⟩ := stationKey_parts (fieldAxis fs) hnumber.2
  unfold putStationRule
  dsimp only
  split
  · exact (State.SameSlots.refl s).stores
  split
  · exact (State.SameSlots.refl s).stores
  rename_i hroom
  refine ⟨⟨.puts (stationKeyOf fs) _ ⟨?_, ?_⟩ rfl, .refl _ _⟩, ⟨.refl _ _, .refl _ _⟩⟩
  · unfold stationKeyOf
    rw [hmod, hdiv]
    exact ⟨hnumber.1, AxisId.num_le (fieldAxis fs)⟩
  · rw [not_and_or, Bool.not_eq_false, not_le] at hroom
    exact hroom

theorem dropStationRule_stores (fs : List Field) (s : State) : s.Stores (dropStationRule fs s).2 := by
  unfold dropStationRule
  dsimp only
  split
  · exact (State.SameSlots.refl s).stores
  · exact ⟨⟨.drops (stationKeyOf fs) rfl, .refl _ _⟩, ⟨.refl _ _, .refl _ _⟩⟩

theorem putProfileRule_stores {s : State} {r : Request} {fs : List Field} (h : Serves s .putProfile r fs) :
    s.Stores (putProfileRule fs (s.setLink s.link.popIntake)).2 := by
  have hnumber := h.natInside (f := .profile) (lo := 0) (hi := 15) (by decide) (fun _ => rfl)
  unfold putProfileRule
  dsimp only
  split
  · exact (State.SameSlots.refl s).stores
  · exact ⟨⟨.refl _ _, .puts (fieldNat fs .profile) _ hnumber.2 rfl⟩, ⟨.refl _ _, .refl _ _⟩⟩

theorem dropProfileRule_stores (fs : List Field) (s : State) : s.Stores (dropProfileRule fs s).2 := by
  unfold dropProfileRule
  dsimp only
  split
  · exact (State.SameSlots.refl s).stores
  split
  · exact (State.SameSlots.refl s).stores
  split
  · exact (State.SameSlots.refl s).stores
  · exact ⟨⟨.refl _ _, .drops (fieldNat fs .profile) rfl⟩, ⟨.refl _ _, .refl _ _⟩⟩

/-- PUT-WINDOW writes one window, and the guards with that member are evaluated. -/
theorem State.putWindow_monitor (s : State) (n : Nat) (v : Window) :
    (s.putWindow n v).monitor.windows =
        Table.put n { v with occupancy := v.test (s.axis v.axis) } s.monitor.windows ∧
      (s.putWindow n v).monitor.guards.map (·.1) = s.monitor.guards.map (·.1) := by
  unfold State.putWindow
  dsimp only
  rw [State.monitorTakes_monitor]
  dsimp only
  exact ⟨rfl, keys_evaluate ..⟩

theorem State.putWindow_tables (s : State) (n : Nat) (v : Window) : (s.putWindow n v).tables = s.tables := by
  unfold State.putWindow
  simp

theorem putWindowRule_stores {s : State} {r : Request} {fs : List Field} (h : Serves s .putWindow r fs) :
    s.Stores (putWindowRule fs (s.setLink s.link.popIntake)).2 := by
  have hnumber := h.natInside (f := .window) (lo := 1) (hi := 48) (by decide) (fun _ => rfl)
  unfold putWindowRule
  dsimp only
  split
  · exact (State.SameSlots.refl s).stores
  · obtain ⟨hwindows, hguards⟩ :=
      (s.setLink s.link.popIntake).putWindow_monitor (fieldNat fs .window) (windowOf fs)
    refine ⟨?_, ⟨.puts _ _ hnumber hwindows, .keeps hguards⟩⟩
    rw [State.putWindow_tables]
    exact (State.SameSlots.refl s).stores.1

theorem dropWindowRule_stores (fs : List Field) (s : State) : s.Stores (dropWindowRule fs s).2 := by
  unfold dropWindowRule
  dsimp only
  split
  · exact (State.SameSlots.refl s).stores
  split
  · exact (State.SameSlots.refl s).stores
  · exact ⟨⟨.refl _ _, .refl _ _⟩, ⟨.drops (fieldNat fs .window) rfl, .refl _ _⟩⟩

theorem putGuardRule_stores {s : State} {r : Request} {fs : List Field} (h : Serves s .putGuard r fs) :
    s.Stores (putGuardRule fs (s.setLink s.link.popIntake)).2 := by
  have hnumber := h.natInside (f := .guard) (lo := 1) (hi := 12) (by decide) (fun _ => rfl)
  unfold putGuardRule
  dsimp only
  split
  · exact (State.SameSlots.refl s).stores
  · unfold State.putGuard State.Stores
    simp only [State.sends_tables, State.sends_monitor, State.offers_tables, State.offers_monitor]
    exact ⟨⟨.refl _ _, .refl _ _⟩, ⟨.refl _ _, .puts (fieldNat fs .guard) _ hnumber rfl⟩⟩

theorem dropGuardRule_stores (fs : List Field) (s : State) : s.Stores (dropGuardRule fs s).2 := by
  unfold dropGuardRule
  dsimp only
  split
  · exact (State.SameSlots.refl s).stores
  · unfold State.dropGuard State.Stores
    simp only [State.sends_tables, State.sends_monitor]
    exact ⟨⟨.refl _ _, .refl _ _⟩, ⟨.refl _ _, .drops (fieldNat fs .guard) rfl⟩⟩

/-! ### Commands -/

/-- A reset empties the stores (R192). -/
theorem State.stores_resetTo (s : State) (c : Cause) (st : Straps) (held : Bool) : s.Stores (s.resetTo c st held) :=
  ⟨⟨.clears rfl, .clears rfl⟩, ⟨.clears rfl, .clears rfl⟩⟩

/-- An expiry does to the stores what its effect does; time that runs does nothing to them. -/
theorem State.stores_expire {f : State → State} (hf : ∀ u, State.Stores u (f u)) (s : State) (t : Option Timer)
    (late : Nat) : s.Stores (s.expire t late f) := by
  rcases s.expire_cases t late f with e | ⟨u, -, -, e⟩
  · rw [e]
    exact (State.SameSlots.refl s).stores
  · rw [e]
    exact hf (s.runTo u late)

theorem State.stores_expire_same {f : State → State} (hf : ∀ u, State.SameSlots u (f u)) (s : State) (t : Option Timer)
    (late : Nat) : s.Stores (s.expire t late f) := State.stores_expire (fun u => (hf u).stores) s t late

theorem State.sameSlots_lineConditionArises (s : State) (a : AxisId) : s.SameSlots (s.lineConditionArises a) := by
  unfold State.lineConditionArises
  dsimp only
  split
  · exact State.sameSlots_raiseLine (s.modifyAxis a _) a
  · exact .refl s

theorem State.stores_frameEnds (st : Straps) (s : State) : s.Stores (s.frameEnds st) := by
  unfold State.frameEnds
  split
  · exact s.stores_resetTo ..
  all_goals exact (State.SameSlots.refl s).stores

/-- The loss of the link leaves the stores, unless it discards the reply of a RESTART, which resets the part (R191). -/
theorem State.stores_keepalive (order : List Block) (st : Straps) (s : State) :
    s.Stores (match s.link.session with
      | .closed => s
      | .opened => (s.linkLoss order).restartAfterLoss st) := by
  split
  · exact (State.SameSlots.refl s).stores
  unfold State.restartAfterLoss
  split
  · exact ⟨⟨.clears rfl, .clears rfl⟩, ⟨.clears rfl, .clears rfl⟩⟩
  all_goals exact (s.sameSlots_linkLoss order).stores

/-- What every command does to the keyed stores. -/
theorem exec_stores (i : Instr) {s t : State} (e : exec i s = .next t) : s.Stores t := by
  cases i <;> simp only [Machine.exec] at e <;> cases e
  case putStation => exact State.stores_execute fun _ _ => putStationRule_stores
  case dropStation => exact State.stores_execute_rule dropStationRule_stores s
  case putProfile => exact State.stores_execute fun _ _ => putProfileRule_stores
  case dropProfile => exact State.stores_execute_rule dropProfileRule_stores s
  case putWindow => exact State.stores_execute fun _ _ => putWindowRule_stores
  case dropWindow => exact State.stores_execute_rule dropWindowRule_stores s
  case putGuard => exact State.stores_execute fun _ _ => putGuardRule_stores
  case dropGuard => exact State.stores_execute_rule dropGuardRule_stores s
  case ping | identify | restart | getAxis | axisStatus | listStations | release | listOrders | setCapture |
      readCaptures | resendNotices =>
    exact (State.sameSlots_execute (fun _ u => .refl u) s).stores
  case stop => exact (State.sameSlots_execute (fun _ u => u.sameSlots_take _ _) s).stores
  case closeSession | openSession | linkStatus | clearFault | getStation | getProfile | enqueue | hold | getWindow |
      getGuard | setOutputs | ackNotices =>
    refine (State.sameSlots_execute (fun fs u => ?_) s).stores
    dsimp only [closeRule, openRule, linkStatusRule, clearFaultRule, getStationRule, getProfileRule, enqueueRule,
      holdRule, getWindowRule, getGuardRule, setOutputsRule, ackNoticesRule]
    repeat' split
    all_goals exact .refl u
  case setAxis => exact (State.sameSlots_execute setAxisRule_sameSlots s).stores
  case home => exact (State.sameSlots_execute homeRule_sameSlots s).stores
  case teach => exact (State.sameSlots_execute teachRule_sameSlots s).stores
  case shift => exact (State.sameSlots_execute shiftRule_sameSlots s).stores
  case cancel => exact (State.sameSlots_execute cancelRule_sameSlots s).stores
  case jog => exact (State.sameSlots_execute jogRule_sameSlots s).stores
  case frameGapExpiry =>
    refine State.stores_expire_same (fun u => ?_) s _ _
    exact .refl u
  case frameEnd moment => exact State.stores_expire (fun u => u.stores_frameEnds moment.straps) s _ _
  case keepaliveExpiry order moment => exact State.stores_expire (fun u => u.stores_keepalive order moment.straps) s _ _
  case reset => exact s.stores_resetTo ..
  case countEdge a levels order => exact (s.sameSlots_countEdge a levels order).stores
  case indexMark a edge order =>
    have hedge : s.SameSlots (s.sameInstantEdge a edge order) := by
      cases edge
      · exact .refl s
      · exact s.sameSlots_countEdge a _ order
    exact ((hedge.trans (State.sameSlots_indexCheck _ a)).trans (State.sameSlots_homingMark _ a _ order)).stores
  case senseEdge a high order =>
    split
    · exact (State.SameSlots.refl s).stores
    · exact (s.sameSlots_senseChange a high order).stores
  case lineTimerExpiry a _ => exact State.stores_expire_same (fun u => u.sameSlots_lineConditionArises a) s _ _
  case stallTimerExpiry | homingLimitExpiry | settleTimerExpiry | restTimerExpiry | moveLimitExpiry |
      lockoutTimerExpiry | deadmanExpiry =>
    exact State.stores_expire_same (fun u => u.sameSlots_take _ _) s _ _
  case orderStart | stopClaim | limitClaim | guardRelease => exact (s.sameSlots_take _ _).stores
  case faultClaim a => exact ((s.sameSlots_dropGained a).trans (State.sameSlots_take _ a _)).stores
  case noticeFrameStart => split <;> exact (State.SameSlots.refl s).stores
  case retryFromCache | frameReceived | replyFrameStart | linePairChange | byteReceived =>
    exact (State.SameSlots.refl s).stores
  case unknownRequestCode =>
    unfold State.executeUnknown
    split <;> exact (State.SameSlots.refl s).stores

/-- What every step does to the keyed stores: it runs a command, or lets time pass. -/
theorem step_stores {s t : State} (e : step s = .next t) : s.Stores t := by
  unfold step at e
  split at e
  · rename_i rest _
    exact exec_stores _ (s := s.withPending rest) e
  · split at e
    · exact exec_stores _ e
    · cases e
      exact (State.SameSlots.refl s).stores

/-- Settles O13: the axes keep their capacities because each operation on an axis does (`Axis.kept_capacityOk`), the
stores because of what a step writes to them (`step_stores`). -/
theorem stepsKeepTheCapacities : Obligations.StepsKeepTheCapacities := by
  refine ⟨fun s t h e => ?_, fun s t h e => ?_⟩
  · obtain ⟨haxes, hpool, hstations, hprofiles, hwindows, hguards⟩ := State.capacitiesOk_iff.1 h
    obtain ⟨htables, hmonitor⟩ := step_stores e
    exact State.capacitiesOk_iff.2 ⟨Axis.kept_capacityOk.step s t haxes e,
      htables.stations.length_le (fun _ hk => hk.2) hstations hpool, htables.stations.wf hstations,
      htables.profiles.wf hprofiles, hmonitor.windows.wf hwindows, hmonitor.guards.wf hguards⟩
  · obtain ⟨htables, hmonitor⟩ := step_stores e
    exact
      { stations := htables.stations.keys (fun _ hk => hk.1) h.stations
        profiles := htables.profiles.keys (fun _ hk => hk) h.profiles
        windows := hmonitor.windows.keys (fun _ hk => hk) h.windows
        guards := hmonitor.guards.keys (fun _ hk => hk) h.guards }

end Sys2Proof.Machine
end

section
namespace Sys2Proof.Machine

/-! ### PUT-STATION and DROP-STATION -/

/-- A rule that answers and leaves the state as it is changes nothing but the answer. -/
theorem Serves.reports {s : State} {c : ReqCode} {r : Request} {fs : List Field} (h : Serves s c r fs)
    {own : List Field → State → Answer × State} {ans : Answer}
    (ho : own fs (s.setLink s.link.popIntake) = (ans, s.setLink s.link.popIntake)) :
    (Host.Outcome.next (s.execute c own) : Host.Outcome State Fault Refusal) = .next (s.answered r ans) :=
  congrArg Host.Outcome.next (h.executes ho rfl)

theorem TableStore.defined_false_iff {t : TableStore} {n : Nat} :
    t.defined n = false ↔ Table.find n t.profiles = none :=
  Option.isSome_eq_false_iff.trans Option.isNone_iff_eq_none

/-- CREATED tells whether the key was new to the store. -/
theorem flagValue_created {α : Type} (k : Nat) (t : Table α) :
    flagValue (!(Table.find k t).isSome) = if Table.find k t = none then 1 else 0 := by
  cases Table.find k t <;> rfl

/-- PUT-STATION with an UNDEFINED profile (R43). -/
theorem putStationRule_undefined {fs : List Field} {s : State}
    (h : Table.find (fieldNat fs .profile) s.tables.profiles = none) :
    putStationRule fs s = (.detail .noSuch 81, s) :=
  if_pos (TableStore.defined_false_iff.2 h)

/-- PUT-STATION of a new station in a full pool (R43). -/
theorem putStationRule_full {fs : List Field} {s : State}
    (hp : Table.find (fieldNat fs .profile) s.tables.profiles ≠ none)
    (hk : Table.find (stationKeyOf fs) s.tables.stations = none) (hfull : 384 ≤ s.tables.stations.length) :
    putStationRule fs s = (.bare .full, s) := by
  have hheld : (Table.find (stationKeyOf fs) s.tables.stations).isSome = false := by rw [hk]; rfl
  exact (if_neg (mt TableStore.defined_false_iff.1 hp)).trans (if_pos ⟨hheld, hfull⟩)

/-- An accepted PUT-STATION (R43, R44). -/
theorem putStationRule_writes {fs : List Field} {s : State}
    (hp : Table.find (fieldNat fs .profile) s.tables.profiles ≠ none)
    (hroom : Table.find (stationKeyOf fs) s.tables.stations ≠ none ∨ s.tables.stations.length < 384) :
    putStationRule fs s =
      (.ok [(.created, if Table.find (stationKeyOf fs) s.tables.stations = none then 1 else 0),
          (.free, 384 - (Table.put (stationKeyOf fs) (stationOf fs) s.tables.stations).length)],
        s.setTables { s.tables with stations := Table.put (stationKeyOf fs) (stationOf fs) s.tables.stations }) := by
  have hnot : ¬ ((Table.find (stationKeyOf fs) s.tables.stations).isSome = false ∧
      Config.stations ≤ s.tables.stations.length) := by
    rintro ⟨hnew, hfull⟩
    rcases hroom with hheld | hlt
    · rw [Option.isSome_iff_ne_none.2 hheld] at hnew
      cases hnew
    · exact absurd hfull (Nat.not_le.2 hlt)
  rw [← flagValue_created]
  exact (if_neg (mt TableStore.defined_false_iff.1 hp)).trans (if_neg hnot)

/-- DROP-STATION of a station that is not held (R45). -/
theorem dropStationRule_absent {fs : List Field} {s : State}
    (h : Table.find (stationKeyOf fs) s.tables.stations = none) : dropStationRule fs s = (.bare .noSuch, s) :=
  if_pos (Option.isNone_iff_eq_none.2 h)

/-- DROP-STATION of a station that is held (R45). -/
theorem dropStationRule_drops {fs : List Field} {s : State}
    (h : Table.find (stationKeyOf fs) s.tables.stations ≠ none) :
    dropStationRule fs s =
      (.ok [(.free, 384 - (Table.drop (stationKeyOf fs) s.tables.stations).length)],
        s.setTables { s.tables with stations := Table.drop (stationKeyOf fs) s.tables.stations }) :=
  if_neg (mt Option.isNone_iff_eq_none.1 h)

/-- Settles O37: the branches of the two rules, and what a store holds after a write and a removal. -/
theorem stationsAreWrittenAndDropped : Obligations.StationsAreWrittenAndDropped := by
  intro s r fs
  refine ⟨fun h => ⟨fun hp => ?_, fun hp hk hfull => ?_, fun hp hroom => ?_⟩, fun h => ⟨fun hk => ?_, fun hk => ?_⟩⟩
  · exact h.reports (putStationRule_undefined hp)
  · exact h.reports (putStationRule_full hp hk hfull)
  · refine ⟨Table.put (stationKeyOf fs) (stationOf fs) s.tables.stations, ?_, ?_, fun j hj => ?_⟩
    · exact congrArg Host.Outcome.next (h.executes (t := s.setTables _) (putStationRule_writes hp hroom) rfl)
    · exact (Table.find_put ..).trans (if_pos rfl)
    · exact (Table.find_put ..).trans (if_neg hj)
  · exact h.reports (dropStationRule_absent hk)
  · refine ⟨Table.drop (stationKeyOf fs) s.tables.stations, ?_, ?_, fun j hj => ?_⟩
    · exact congrArg Host.Outcome.next (h.executes (t := s.setTables _) (dropStationRule_drops hk) rfl)
    · exact (Table.find_drop ..).trans (if_pos rfl)
    · exact (Table.find_drop ..).trans (if_neg hj)

/-! ### GET-STATION and GET-PROFILE -/

theorem getStationRule_absent {fs : List Field} {s : State}
    (h : Table.find (stationKeyOf fs) s.tables.stations = none) : getStationRule fs s = (.bare .noSuch, s) := by
  unfold getStationRule
  rw [h]

theorem getStationRule_held {fs : List Field} {s : State} {st : Station}
    (h : Table.find (stationKeyOf fs) s.tables.stations = some st) :
    getStationRule fs s =
      (.ok ((.axis, fieldInt fs .axis) :: (.station, fieldInt fs .station) :: st.fields), s) := by
  unfold getStationRule
  rw [h]

theorem Station.fields_none {st : Station} (h : st.settle = none) :
    st.fields = [(.position, st.position), (.profile, (st.profile : Int))] := by
  unfold Station.fields
  rw [h]
  rfl

theorem Station.fields_some {st : Station} {n : Nat} (h : st.settle = some n) :
    st.fields = [(.position, st.position), (.profile, (st.profile : Int)), (.settle, (n : Int))] := by
  unfold Station.fields
  rw [h]
  rfl

theorem getProfileRule_undefined {fs : List Field} {s : State}
    (h : Table.find (fieldNat fs .profile) s.tables.profiles = none) : getProfileRule fs s = (.bare .noSuch, s) := by
  unfold getProfileRule
  rw [h]

theorem getProfileRule_defined {fs : List Field} {s : State} {p : Profile}
    (h : Table.find (fieldNat fs .profile) s.tables.profiles = some p) :
    getProfileRule fs s = (.ok ((.profile, fieldInt fs .profile) :: p.fields), s) := by
  unfold getProfileRule
  rw [h]

/-- Settles O38: the two rules answer what the Table Store holds, under keys in their ranges. -/
theorem getStationAndGetProfileReport : Obligations.GetStationAndGetProfileReport := by
  refine ⟨fun s r fs h => ?_, fun s r fs h => ?_⟩
  · obtain ⟨hlo, hhi, -⟩ := h.axis (by decide)
    obtain ⟨hfirst, hlast⟩ := h.inside (f := .station) (lo := 1) (hi := 999) (by decide) (fun _ => rfl)
    refine ⟨fun hk => ?_, fun st hk hs => ?_, fun st n hk hs => ?_, hlo, hhi, hfirst, hlast⟩
    · exact h.reports (getStationRule_absent hk)
    · refine h.reports ?_
      rw [getStationRule_held (s := s.setLink s.link.popIntake) hk, Station.fields_none hs]
      rfl
    · refine h.reports ?_
      rw [getStationRule_held (s := s.setLink s.link.popIntake) hk, Station.fields_some hs]
      rfl
  · obtain ⟨hlo, hhi⟩ := h.inside (f := .profile) (lo := 0) (hi := 15) (by decide) (fun _ => rfl)
    refine ⟨fun hk => ?_, fun p hk => ?_, hlo, hhi⟩
    · exact h.reports (getProfileRule_undefined hk)
    · exact h.reports (getProfileRule_defined hk)

/-! ### PUT-PROFILE and DROP-PROFILE -/

/-- PUT-PROFILE with S not 0 and less than C (R49). -/
theorem putProfileRule_bad {fs : List Field} {s : State} (h0 : (profileOf fs).slow ≠ 0)
    (hc : (profileOf fs).slow < (profileOf fs).cut) : putProfileRule fs s = (.detail .badValue 88, s) :=
  if_pos ⟨h0, hc⟩

/-- An accepted PUT-PROFILE (R49). -/
theorem putProfileRule_writes {fs : List Field} {s : State}
    (h : (profileOf fs).slow = 0 ∨ (profileOf fs).cut ≤ (profileOf fs).slow) :
    putProfileRule fs s =
      (.ok [(.created, if Table.find (fieldNat fs .profile) s.tables.profiles = none then 1 else 0)],
        s.setTables { s.tables with
          profiles := Table.put (fieldNat fs .profile) (profileOf fs) s.tables.profiles }) := by
  have hnot : ¬ ((profileOf fs).slow ≠ 0 ∧ (profileOf fs).slow < (profileOf fs).cut) := by omega
  rw [← flagValue_created]
  exact if_neg hnot

/-- An order that has not started carries a profile entry in its own PROFILE field (R50). -/
theorem State.profileAwaited_iff {s : State} {n : Nat} :
    s.profileAwaited n = true ↔ ∃ a o, o ∈ (s.axis a).queue ∧
      ((∃ st, o.destination = .station st (some n)) ∨ ∃ t, o.destination = .target t n) := by
  have hcarries (o : Order) : o.profile = some n ↔
      (∃ st, o.destination = .station st (some n)) ∨ ∃ t, o.destination = .target t n := by
    unfold Order.profile
    cases o.destination <;> simp
  simp only [State.profileAwaited, List.any_eq_true, decide_eq_true_eq, hcarries]
  exact ⟨fun ⟨a, _, o, ho⟩ => ⟨a, o, ho⟩, fun ⟨a, o, ho⟩ => ⟨a, AxisId.mem_all a, o, ho⟩⟩

theorem dropProfileRule_undefined {fs : List Field} {s : State}
    (h : Table.find (fieldNat fs .profile) s.tables.profiles = none) : dropProfileRule fs s = (.bare .noSuch, s) :=
  if_pos (TableStore.defined_false_iff.2 h)

/-- DROP-PROFILE of an entry that a station or an order names (R50). -/
theorem dropProfileRule_inUse {fs : List Field} {s : State}
    (h : Table.find (fieldNat fs .profile) s.tables.profiles ≠ none)
    (hu : (∃ e ∈ s.tables.stations, e.2.profile = fieldNat fs .profile) ∨
      s.profileAwaited (fieldNat fs .profile) = true) : dropProfileRule fs s = (.bare .inUse, s) := by
  refine (if_neg (mt TableStore.defined_false_iff.1 h)).trans ?_
  by_cases hst : s.tables.stations.any (fun e => e.2.profile == fieldNat fs .profile) = true
  · exact if_pos hst
  · have hno : ¬ ∃ e ∈ s.tables.stations, e.2.profile = fieldNat fs .profile := by
      simpa using hst
    exact (if_neg hst).trans (if_pos (hu.resolve_left hno))

/-- An accepted DROP-PROFILE (R50). -/
theorem dropProfileRule_drops {fs : List Field} {s : State}
    (h : Table.find (fieldNat fs .profile) s.tables.profiles ≠ none)
    (hst : ∀ e ∈ s.tables.stations, e.2.profile ≠ fieldNat fs .profile)
    (hq : ¬ s.profileAwaited (fieldNat fs .profile) = true) :
    dropProfileRule fs s =
      (.ok [], s.setTables { s.tables with profiles := Table.drop (fieldNat fs .profile) s.tables.profiles }) := by
  have hany : ¬ s.tables.stations.any (fun e => e.2.profile == fieldNat fs .profile) = true := by
    simpa using hst
  exact (if_neg (mt TableStore.defined_false_iff.1 h)).trans ((if_neg hany).trans (if_neg hq))

/-- Settles O40: the branches of the two rules, and what a store holds after a write and a removal. -/
theorem profilesAreWrittenAndDropped : Obligations.ProfilesAreWrittenAndDropped := by
  intro s r fs
  refine ⟨fun h => ⟨fun h0 hc => ?_, fun hok => ?_⟩,
    fun h => ⟨fun hk => ?_, fun hk hu => ?_, fun hk hst hq => ?_⟩⟩
  · exact h.reports (putProfileRule_bad h0 hc)
  · refine ⟨Table.put (fieldNat fs .profile) (profileOf fs) s.tables.profiles, ?_, ?_, fun j hj => ?_⟩
    · exact congrArg Host.Outcome.next (h.executes (t := s.setTables _) (putProfileRule_writes hok) rfl)
    · exact (Table.find_put ..).trans (if_pos rfl)
    · exact (Table.find_put ..).trans (if_neg hj)
  · exact h.reports (dropProfileRule_undefined hk)
  · exact h.reports (dropProfileRule_inUse hk (hu.imp_right State.profileAwaited_iff.2))
  · refine ⟨Table.drop (fieldNat fs .profile) s.tables.profiles, ?_, ?_, fun j hj => ?_⟩
    · refine congrArg Host.Outcome.next (h.executes (t := s.setTables _) (dropProfileRule_drops hk hst ?_) rfl)
      exact mt State.profileAwaited_iff.1 hq
    · exact (Table.find_drop ..).trans (if_pos rfl)
    · exact (Table.find_drop ..).trans (if_neg hj)


/-! ### ENQUEUE -/

/-- The number of the profile to be used by an order, if its place exists (R53). -/
def TableStore.profileUsed (t : TableStore) (a : AxisId) (d : Destination) : Option Nat :=
  (t.place a d).map (fun p => p.2.1)

theorem TableStore.profileUsed_eq (t : TableStore) (a : AxisId) (d : Destination) :
    t.profileUsed a d =
      match d with
      | .target _ n => some n
      | .station n own => (Table.find (stationKey a n) t.stations).map (fun st => own.getD st.profile) := by
  unfold TableStore.profileUsed TableStore.place
  cases d with
  | target p n => rfl
  | station n own =>
    dsimp only
    cases Table.find (stationKey a n) t.stations <;> rfl

theorem Axis.refusesOrder_watched {x : Axis} (h : x.config.role = .watched) (a : AxisId) (t : TableStore) (o : Order) :
    x.refusesOrder a t o = some (.bare .wrongState) :=
  if_pos (Axis.not_driven_of_watched h)

theorem Axis.refusesOrder_full {x : Axis} (hd : x.config.role = .driven) (hfull : 8 ≤ x.moveQueue.length) (a : AxisId)
    (t : TableStore) (o : Order) : x.refusesOrder a t o = some (.bare .full) :=
  (if_neg (by simp [Axis.driven_iff.2 hd])).trans (if_pos hfull)

theorem Axis.refusesOrder_exists {x : Axis} {o : Order} (hd : x.config.role = .driven) (hroom : x.moveQueue.length < 8)
    (htag : ∃ e ∈ x.moveQueue, e.tag = o.tag) (a : AxisId) (t : TableStore) :
    x.refusesOrder a t o = some (.detail .exists_ 96) :=
  (if_neg (by simp [Axis.driven_iff.2 hd])).trans ((if_neg (Nat.not_le.2 hroom)).trans (if_pos (by simpa using htag)))

/-- Behind the first three checks of ENQUEUE the place, its profile and the reference decide (R60). -/
theorem Axis.refusesOrder_placed {x : Axis} {o : Order} (hd : x.config.role = .driven) (hroom : x.moveQueue.length < 8)
    (htag : ∀ e ∈ x.moveQueue, e.tag ≠ o.tag) (a : AxisId) (t : TableStore) :
    (t.profileUsed a o.destination = none → x.refusesOrder a t o = some (.detail .noSuch 80)) ∧
    ∀ n, t.profileUsed a o.destination = some n →
      (Table.find n t.profiles = none → x.refusesOrder a t o = some (.detail .noSuch 81)) ∧
      (Table.find n t.profiles ≠ none →
        (x.counting.reference = .unreferenced → x.motion.isHoming = false →
          x.refusesOrder a t o = some (.bare .notReferenced)) ∧
        (x.counting.reference = .referenced ∨ x.motion.isHoming = true → x.refusesOrder a t o = none)) := by
  have hnew : ¬ x.moveQueue.any (fun e => e.tag == o.tag) = true := by simpa using htag
  unfold TableStore.profileUsed Axis.refusesOrder
  rw [if_neg (by simp [Axis.driven_iff.2 hd]), if_neg (Nat.not_le.2 hroom), if_neg hnew]
  cases t.place a o.destination with
  | none => exact ⟨fun _ => rfl, fun n hn => absurd hn (by simp)⟩
  | some p =>
    refine ⟨fun hn => absurd hn (by simp), fun n hn => ?_⟩
    obtain rfl : p.2.1 = n := Option.some.inj hn
    refine ⟨fun hp => if_pos (TableStore.defined_false_iff.2 hp), fun hp => ⟨fun hr hh => ?_, fun hr => ?_⟩⟩
    · exact (if_neg (mt TableStore.defined_false_iff.1 hp)).trans (if_pos ⟨hr, hh⟩)
    · refine (if_neg (mt TableStore.defined_false_iff.1 hp)).trans (if_neg ?_)
      rintro ⟨hu, hh⟩
      rcases hr with hr | hr
      · rw [hu] at hr; cases hr
      · rw [hh] at hr; cases hr

/-- A refused ENQUEUE changes nothing but the answer. -/
theorem Serves.enqueue_refused {s : State} {r : Request} {fs : List Field} (h : Serves s .enqueue r fs) {ans : Answer}
    (hr : (s.axis (fieldAxis fs)).refusesOrder (fieldAxis fs) s.tables (orderOf fs) = some ans) :
    exec .enqueue s = .next (s.answered r ans) := by
  refine h.reports (own := enqueueRule) ?_
  unfold enqueueRule
  simp only [State.setLink_axis, State.setLink_tables, hr]

/-- An accepted ENQUEUE appends its order (R61). -/
theorem Serves.enqueue_accepted {s : State} {r : Request} {fs : List Field} (h : Serves s .enqueue r fs)
    (hr : (s.axis (fieldAxis fs)).refusesOrder (fieldAxis fs) s.tables (orderOf fs) = none) :
    exec .enqueue s =
      .next ((s.setAxis (fieldAxis fs)
          { s.axis (fieldAxis fs) with queue := (s.axis (fieldAxis fs)).queue ++ [orderOf fs] }).answered r
        ⟨.ok, [(.queueLength, (s.axis (fieldAxis fs)).moveQueue.length + 1)], [], []⟩) := by
  refine congrArg Host.Outcome.next (h.executes (own := enqueueRule) (t := s.setAxis (fieldAxis fs) _) ?_ rfl)
  unfold enqueueRule
  simp only [State.setLink_axis, State.setLink_tables, hr]
  rfl

/-- Settles O41: the checks of ENQUEUE in their order (`Axis.refusesOrder_placed` behind the first three). -/
theorem enqueueAppendsTheOrder : Obligations.EnqueueAppendsTheOrder := by
  rintro s r fs a h rfl
  refine ⟨fun hw => ?_, fun hd hfull => ?_, fun hd hroom htag => ?_, fun hd hroom htag => ?_⟩
  · exact h.enqueue_refused (Axis.refusesOrder_watched hw _ _ _)
  · exact h.enqueue_refused (Axis.refusesOrder_full hd hfull _ _ _)
  · exact h.enqueue_refused (Axis.refusesOrder_exists hd hroom htag _ _)
  · obtain ⟨hgone, hplaced⟩ :=
      Axis.refusesOrder_placed (o := orderOf fs) hd hroom htag (fieldAxis fs) s.tables
    rw [TableStore.profileUsed_eq] at hgone hplaced
    refine ⟨fun hused => h.enqueue_refused (hgone hused), fun n hused => ?_⟩
    obtain ⟨hundefined, hdefined⟩ := hplaced n hused
    refine ⟨fun hp => h.enqueue_refused (hundefined hp), fun hp => ⟨fun hu hm => ?_, fun hr => ?_⟩⟩
    · exact h.enqueue_refused ((hdefined hp).1 hu hm)
    · exact h.enqueue_accepted ((hdefined hp).2 hr)


/-! ### Pages of list replies -/

/-- The bytes of a body that has used some and holds the first n of some groups, with room for the trailing field where
groups are left (R197; notes/assumptions/16.md). -/
def pageSize (room used : Nat) (gs : List (List Field)) (n : Nat) : Nat :=
  used + ((gs.take n).map groupSize).sum + (if n < gs.length then room else 0)

/-- A page from its first group on is the page of the others behind that group. -/
theorem pageSize_cons (room used : Nat) (g : List Field) (gs : List (List Field)) (n : Nat) :
    pageSize room used (g :: gs) (n + 1) = pageSize room (used + groupSize g) gs n := by
  simp [pageSize, Nat.add_assoc]

/-- With the first group, the page of the others begins empty. -/
theorem pageSize_first (room used : Nat) (gs : List (List Field)) :
    pageSize room used gs 0 = used + (if gs.isEmpty then 0 else room) := by
  cases gs <;> simp [pageSize]

theorem placed_cons_fits {room used : Nat} {g : List Field} {gs : List (List Field)}
    (h : pageSize room used (g :: gs) 1 ≤ 200) :
    placed room used (g :: gs) = placed room (used + groupSize g) gs + 1 := by
  rw [pageSize_cons, pageSize_first] at h
  exact if_pos h

theorem placed_cons_full {room used : Nat} {g : List Field} {gs : List (List Field)}
    (h : 200 < pageSize room used (g :: gs) 1) : placed room used (g :: gs) = 0 := by
  rw [pageSize_cons, pageSize_first] at h
  exact if_neg (Nat.not_le.2 h)

/-- Groups are placed as long as the page stays within a body: every page up to the one placed fits, where the empty one
does, and the next one does not. -/
theorem placed_spec (room : Nat) (gs : List (List Field)) (used : Nat) (h0 : pageSize room used gs 0 ≤ 200) :
    placed room used gs ≤ gs.length ∧ (∀ m ≤ placed room used gs, pageSize room used gs m ≤ 200) ∧
      (placed room used gs < gs.length → 200 < pageSize room used gs (placed room used gs + 1)) := by
  induction gs generalizing used with
  | nil => exact ⟨le_rfl, fun m hm => Nat.le_zero.1 hm ▸ h0, fun h => absurd h (Nat.lt_irrefl 0)⟩
  | cons g gs ih =>
    rcases Nat.lt_or_ge 200 (pageSize room used (g :: gs) 1) with hfull | hfits
    · rw [placed_cons_full hfull]
      exact ⟨Nat.zero_le _, fun m hm => Nat.le_zero.1 hm ▸ h0, fun _ => hfull⟩
    · rw [placed_cons_fits hfits]
      rw [pageSize_cons] at hfits
      obtain ⟨hlen, hpages, hnext⟩ := ih (used + groupSize g) hfits
      refine ⟨Nat.succ_le_succ hlen, fun m hm => ?_, fun hlt => ?_⟩
      · cases m with
        | zero => exact h0
        | succ m =>
          rw [pageSize_cons]
          exact hpages m (Nat.le_of_succ_le_succ hm)
      · rw [pageSize_cons]
        exact hnext (Nat.lt_of_succ_lt_succ hlt)

/-! ### LIST-STATIONS -/

/-- The records that LIST-STATIONS reports, by the thousands of their keys and the station numbers below (R41, R47). -/
theorem stationsFrom_eq (a : AxisId) (first : Nat) (ss : Table Station) :
    stationsFrom a first ss =
      (ss.filter (fun e => decide (e.1 / 1000 = a.num) && decide (first ≤ e.1 % 1000))).map
        (fun e => (e.1 % 1000, e.2)) := by
  unfold stationsFrom
  have hkeys : ∀ e ∈ ss,
      (decide (stationKey a first ≤ e.1) && decide (e.1 ≤ stationKey a 999)) =
        (decide (e.1 / 1000 = a.num) && decide (first ≤ e.1 % 1000)) := by
    intro e _
    rw [← Bool.decide_and, ← Bool.decide_and, decide_eq_decide]
    unfold stationKey
    omega
  rw [List.filter_congr hkeys]
  refine List.map_congr_left (fun e he => Prod.ext ?_ rfl)
  have hin := List.of_mem_filter he
  simp only [Bool.and_eq_true, decide_eq_true_eq] at hin
  show e.1 - stationKey a 0 = e.1 % 1000
  unfold stationKey
  omega

/-- The group of a station record, field by field (R47). -/
theorem stationGroup_eq (e : Nat × Station) :
    stationGroup e =
      ([(.station, (e.1 : Int)), (.position, e.2.position), (.profile, (e.2.profile : Int))] : List Field) ++
        (match e.2.settle with
          | none => ([] : List Field)
          | some n => [(.settle, (n : Int))]) := by
  obtain ⟨k, p, f, settle⟩ := e
  cases settle <;> rfl

/-- The reply of LIST-STATIONS holds at most 12 groups, and as many as fit behind KIND, TAG and the result (R47,
R197). -/
theorem stationPage_spec (es : List (Nat × Station)) :
    ∃ n, n ≤ 12 ∧ n ≤ es.length ∧ pageSize 4 3 (es.map stationGroup) n ≤ 200 ∧
      (n < 12 → n < es.length → 200 < pageSize 4 3 (es.map stationGroup) (n + 1)) ∧
      stationPage es =
        ⟨.ok, [], (es.take n).map stationGroup, optionalField .next ((es[n]?).map (fun e => (e.1 : Int)))⟩ := by
  have h0 : pageSize 4 3 (es.map stationGroup) 0 ≤ 200 := by
    rw [pageSize_first]
    split <;> omega
  obtain ⟨hlen, hpages, hnext⟩ := placed_spec 4 (es.map stationGroup) 3 h0
  rw [List.length_map] at hlen hnext
  refine ⟨min 12 (placed 4 3 (es.map stationGroup)), min_le_left .., (min_le_right ..).trans hlen,
    hpages _ (min_le_right ..), fun h12 hmore => ?_, ?_⟩
  · have hmin : min 12 (placed 4 3 (es.map stationGroup)) = placed 4 3 (es.map stationGroup) := by omega
    rw [hmin] at hmore ⊢
    exact hnext hmore
  · rw [List.map_take]
    rfl

/-! ### LIST-ORDERS -/

/-- The fields of an order in its group (R78). -/
theorem Order.fields_eq (o : Order) :
    o.fields =
      ([(.orderTag, (o.tag : Int))] : List Field) ++
        (match o.destination with
          | .station n none => ([(.station, (n : Int))] : List Field)
          | .station n (some p) => [(.station, (n : Int)), (.profile, (p : Int))]
          | .target t p => [(.target, t), (.profile, (p : Int))]) ++
        (match o.settle with
          | none => ([] : List Field)
          | some n => [(.settle, (n : Int))]) ++
        ([(.chain, (o.chain.code : Int)), (.notify, if o.notify then 1 else 0)] : List Field) := by
  obtain ⟨tag, destination, settle, chain, notify⟩ := o
  rcases destination with ⟨n, _ | p⟩ | ⟨t, p⟩ <;> cases settle <;> rfl

/-- The groups of the queue of an axis, the active order first (R78). -/
theorem Axis.orderGroups_eq (x : Axis) :
    x.orderGroups =
      match x.motion with
      | .moving o => (o.order.fields ++ o.fields) :: x.queue.map Order.fields
      | _ => x.queue.map Order.fields := by
  unfold Axis.orderGroups
  cases x.motion <;> rfl

/-- The reply of LIST-ORDERS holds as many groups as fit behind KIND, TAG, the result, MOTION and HOLD-PENDING (R78,
R197). -/
theorem Axis.orderPage_spec (skip : Nat) (x : Axis) :
    ∃ n, n ≤ (x.orderGroups.drop skip).length ∧
      x.orderPage skip =
        ⟨.ok, [(.motion, x.motion.code), (.holdPending, flagValue x.holdPending)], (x.orderGroups.drop skip).take n,
          if n < (x.orderGroups.drop skip).length then
            [(.more, ((x.orderGroups.drop skip).length : Int) - n)] else []⟩ ∧
      pageSize 3 9 (x.orderGroups.drop skip) n ≤ 200 ∧
      (n < (x.orderGroups.drop skip).length → 200 < pageSize 3 9 (x.orderGroups.drop skip) (n + 1)) := by
  have h0 : pageSize 3 9 (x.orderGroups.drop skip) 0 ≤ 200 := by
    rw [pageSize_first]
    split <;> omega
  obtain ⟨hlen, hpages, hnext⟩ := placed_spec 3 (x.orderGroups.drop skip) 9 h0
  exact ⟨placed 3 9 (x.orderGroups.drop skip), hlen, rfl, hpages _ le_rfl, hnext⟩

/-- Settles O39: both replies hold the groups that `placed_spec` speaks of. -/
theorem listRepliesArePaged : Obligations.ListRepliesArePaged := by
  refine ⟨?_, ?_⟩
  · rintro s r fs a h rfl first mine group body
    have hgroup : stationGroup = group := funext stationGroup_eq
    have hmine : stationsFrom (fieldAxis fs) first s.tables.stations = mine := stationsFrom_eq ..
    have hbody (n : Nat) : pageSize 4 3 (mine.map stationGroup) n = body n := by
      simp only [pageSize, body, hgroup, ← List.map_take, List.map_map, List.length_map]
      rfl
    obtain ⟨n, h12, hlen, hfits, hnext, hpage⟩ := stationPage_spec mine
    rw [hbody] at hfits
    simp only [hbody] at hnext
    refine ⟨n, h12, hlen, hfits, hnext, ?_⟩
    refine h.reports (own := listStationsRule) (Prod.ext ?_ rfl)
    show stationPage (stationsFrom (fieldAxis fs) first s.tables.stations) = _
    rw [hmine, hpage, hgroup]
    cases mine[n]? <;> rfl
  · rintro s r fs a h rfl x order running all groups
    have hall : x.orderGroups = all := by
      have horder : Order.fields = order := funext Order.fields_eq
      have hrunning : ActiveOrder.fields = running := by
        funext o
        obtain ⟨_, _, _, _, _, _, _, _, _, _, _, _, leg⟩ := o
        cases leg <;> rfl
      have hgroups := x.orderGroups_eq
      rw [horder, hrunning] at hgroups
      exact hgroups
    obtain ⟨n, hlen, hpage, hfits, hnext⟩ := x.orderPage_spec (fieldNat fs .skip)
    rw [hall] at hlen hpage hfits hnext
    refine ⟨n, hlen, ?_, hfits, hnext⟩
    exact h.reports (own := listOrdersRule) (Prod.ext hpage rfl)

end Sys2Proof.Machine
end

section
namespace Sys2Proof.Machine

/-! ### The checks of a start -/

/-- Check 5 spelled out: the target, and on a LINEAR axis the take-up point of a one-sided approach (R65). -/
theorem AxisConfig.reaches_iff {c : AxisConfig} {r : Resolved} :
    c.reaches r = true ↔
      (c.kind = .rotary → 0 ≤ r.target ∧ r.target ≤ c.modulus - 1) ∧
      (c.kind = .linear → -67108863 ≤ r.target ∧ r.target ≤ 67108863 ∧
        (r.snapshot.approach = .fromBelow → -67108863 ≤ r.target - r.snapshot.takeup) ∧
        (r.snapshot.approach = .fromAbove → r.target + r.snapshot.takeup ≤ 67108863)) := by
  unfold AxisConfig.reaches
  cases c.kind with
  | rotary => simp [within_iff]
  | linear =>
    unfold takeupPoint
    cases r.snapshot.approach <;> simp [inPositionRange_iff] <;> omega

/-- Check 6 spelled out: a first leg, and a limit window against it (R66). -/
theorem Leg.limited_iff {limited : Dir → Bool} {leg : Leg} :
    leg.limited limited = true ↔ ∃ d h sub, leg = .run d h sub ∧ limited d = true := by
  cases leg <;> simp [Leg.limited]

/-- Check 7 spelled out (R66). -/
theorem AxisConfig.conflicts_iff {c : AxisConfig} {pr : Profile} :
    c.conflicts pr = true ↔ c.kind = .rotary ∧
      (pr.approach = .fromBelow ∧ c.rotPolicy = .reverse ∨ pr.approach = .fromAbove ∧ c.rotPolicy = .forward) := by
  simp [AxisConfig.conflicts]

section
variable {x : Axis} {r : Resolved} {limited : Dir → Bool} {p : Int}

theorem Axis.checkResolved_outOfRange (h : ¬ x.config.reaches r = true) :
    x.checkResolved limited p r = .fails .outOfRange :=
  if_pos (Bool.eq_false_iff.2 h)

theorem Axis.checkResolved_limited (h : x.config.reaches r = true)
    (hl : (x.config.firstLeg r p).limited limited = true) : x.checkResolved limited p r = .fails .limited :=
  (if_neg (Bool.eq_false_iff.not.2 (not_not.2 h))).trans (if_pos hl)

theorem Axis.checkResolved_conflict (h : x.config.reaches r = true)
    (hl : ¬ (x.config.firstLeg r p).limited limited = true) (hc : x.config.conflicts r.snapshot = true) :
    x.checkResolved limited p r = .fails .conflict :=
  (if_neg (Bool.eq_false_iff.not.2 (not_not.2 h))).trans ((if_neg hl).trans (if_pos hc))

theorem Axis.checkResolved_runs (h : x.config.reaches r = true)
    (hl : ¬ (x.config.firstLeg r p).limited limited = true) (hc : ¬ x.config.conflicts r.snapshot = true) :
    x.checkResolved limited p r = .runs r :=
  (if_neg (Bool.eq_false_iff.not.2 (not_not.2 h))).trans ((if_neg hl).trans (if_neg hc))

end

/-- What the Table Store resolves for an order: the record of its station, or its own TARGET and PROFILE (R53). -/
theorem TableStore.place_eq {t : TableStore} {a : AxisId} {d : Destination} {target : Int} {number : Nat}
    {station : Option Nat}
    (h : (∃ n own st, d = .station n own ∧ Table.find (stationKey a n) t.stations = some st ∧
        target = st.position ∧ number = own.getD st.profile ∧ station = st.settle) ∨
      (d = .target target number ∧ station = none)) : t.place a d = some (target, number, station) := by
  rcases h with ⟨n, own, st, rfl, hst, rfl, rfl, rfl⟩ | ⟨rfl, rfl⟩
  · unfold TableStore.place
    dsimp only
    rw [hst]
  · rfl

theorem TableStore.place_gone {t : TableStore} {a : AxisId} {n : Nat} {own : Option Nat}
    (h : Table.find (stationKey a n) t.stations = none) : t.place a (.station n own) = none := by
  unfold TableStore.place
  dsimp only
  rw [h]

theorem Axis.checkStart_guarded (a : AxisId) (t : TableStore) (limited : Dir → Bool) (o : Order) (x : Axis) :
    x.checkStart a t true limited o = .waits := rfl

theorem Axis.checkStart_unreferenced {x : Axis} (h : x.counting.reference = .unreferenced) (a : AxisId)
    (t : TableStore) (limited : Dir → Bool) (o : Order) : x.checkStart a t false limited o = .fails .unreferenced := by
  unfold Axis.checkStart
  rw [Axis.position_unreferenced h]
  rfl

theorem Axis.checkStart_gone {x : Axis} (h : x.counting.reference = .referenced) {a : AxisId} {t : TableStore}
    {o : Order} (hp : t.place a o.destination = none) (limited : Dir → Bool) :
    x.checkStart a t false limited o = .fails .stationGone := by
  unfold Axis.checkStart
  rw [Axis.position_referenced h, hp]
  rfl

/-- Behind the resolution a start is decided by checks 5 to 7 (R63). -/
theorem Axis.checkStart_resolved {x : Axis} (h : x.counting.reference = .referenced) {a : AxisId} {t : TableStore}
    {o : Order} {target : Int} {number : Nat} {station : Option Nat} {pr : Profile}
    (hp : t.place a o.destination = some (target, number, station)) (hpr : Table.find number t.profiles = some pr)
    (limited : Dir → Bool) :
    x.checkStart a t false limited o =
      x.checkResolved limited x.formed ⟨target, number, pr, settleOf o.settle station pr.settle⟩ := by
  unfold Axis.checkStart
  rw [Axis.position_referenced h, hp]
  simp only [hpr]
  rfl

/-! ### The effect of a start -/

/-- What becomes of an axis with the head order o, by what its start finds (R62, R63). -/
def Axis.started (a : AxisId) (now : Time) (o : Order) (rest : List Order) (x : Axis) : Start → Taken
  | .waits => ({ x with motion := .waiting }, [])
  | .fails why => x.failStart a why o rest
  | .nothing => (x, [])
  | .runs r => x.startOrder a now x.formed o rest r

theorem Axis.takeStart_head {x : Axis} {o : Order} {rest : List Order} (hm : x.motion = .idle)
    (hq : x.queue = o :: rest) {a : AxisId} {t : TableStore} {g : Bool} {limited : Dir → Bool} {found : Start}
    (hc : x.checkStart a t g limited o = found) (now : Time) :
    x.takeStart a now t g limited = x.started a now o rest found := by
  unfold Axis.takeStart
  split
  · rename_i _ hq'
    obtain ⟨rfl, rfl⟩ := List.cons.inj (hq.symm.trans hq')
    rw [hc]
    cases found <;> rfl
  · rename_i hnot
    exact absurd hq (hnot o rest hm)

/-- A leg that the lockout forbids waits in REVERSING (R84, R85). -/
theorem Axis.beginLeg_locked {x : Axis} {limited : Dir → Bool} {d : Dir} (hl : limited d = false)
    (hp : x.permits d = false) (a : AxisId) (now : Time) (o : ActiveOrder) (high : Bool) (sub : Substate) :
    x.beginLeg a now limited o d high sub = ({ x with motion := .moving { o with substate := .reversing d } }, []) := by
  unfold Axis.beginLeg
  rw [hl, hp]
  rfl

/-- The first report of an order (R97). -/
theorem ActiveOrder.report_first {o : ActiveOrder} (h : o.zones = []) (a : AxisId) (z : Zone) :
    o.report a z =
      ({ o with zones := if o.order.notify then [z] else [] },
        (if o.order.notify then [z] else []).map (.zone a o.order.tag)) := by
  unfold ActiveOrder.report
  cases o.order.notify with
  | false => exact congrArg (fun zs => ({ o with zones := zs }, ([] : List NoticeBody))) h
  | true =>
    rw [h]
    rfl

/-- The zones that an order reports when its first leg turns on (R97). -/
def firstZones (notify : Bool) (sub : Substate) : List Zone :=
  if notify then
    match sub with
    | .slow _ => [.slowEntered]
    | .takeup | .fast | .coast _ | .settle _ | .reversing _ => []
  else []

theorem ActiveOrder.legReport_first {o : ActiveOrder} (h : o.zones = []) (a : AxisId) (sub : Substate) :
    o.legReport a sub =
      ({ o with zones := firstZones o.order.notify sub },
        (firstZones o.order.notify sub).map (.zone a o.order.tag)) := by
  cases sub with
  | slow k => exact ActiveOrder.report_first h a .slowEntered
  | takeup | fast | coast | settle | reversing =>
    unfold firstZones
    rw [ite_self]
    exact congrArg (fun zs => ({ o with zones := zs }, ([] : List NoticeBody))) h

/-- The ORDER-STARTED notice of a start (R67). -/
def startedNotice (a : AxisId) (o : Order) (r : Resolved) (aim : Aim) (leg : Leg) : List NoticeBody :=
  if o.notify then [.orderStarted a o.tag r.target (leg.reported aim.dir) leg.isTakeup] else []

/-- A start inside the window settles at once (R67, R83). -/
theorem Axis.startOrder_settle {x : Axis} {r : Resolved} {p : Int} (h : x.config.firstLeg r p = .settle) (a : AxisId)
    (now : Time) (o : Order) (rest : List Order) :
    x.startOrder a now p o rest r =
      ({ x with
          queue := rest
          motion := .moving { r.activate o (x.config.aim r.snapshot p r.target) .settle with
            zones := if o.notify then [.windowEntered] else [] } },
        startedNotice a o r (x.config.aim r.snapshot p r.target) .settle ++
          (if o.notify then [.windowEntered] else []).map (.zone a o.tag)) := by
  unfold Axis.startOrder
  dsimp only
  rw [h, Axis.legStart_settle (by exact h)]
  unfold Axis.enterSettle
  rw [ActiveOrder.report_first rfl]
  rfl

/-- A start whose first leg the lockout forbids waits in REVERSING (R67, R84). -/
theorem Axis.startOrder_reversing {x : Axis} {r : Resolved} {p : Int} {d : Dir} {high : Bool} {sub : Substate}
    (h : x.config.firstLeg r p = .run d high sub) (hp : x.permits d = false) (a : AxisId) (now : Time) (o : Order)
    (rest : List Order) :
    x.startOrder a now p o rest r =
      ({ x with
          queue := rest
          motion := .moving { r.activate o (x.config.aim r.snapshot p r.target) (.run d high sub) with
            substate := .reversing d } },
        startedNotice a o r (x.config.aim r.snapshot p r.target) (.run d high sub)) := by
  unfold Axis.startOrder
  dsimp only
  rw [h, Axis.legStart_run (by exact h), Axis.beginLeg_locked rfl (by exact hp), List.append_nil]
  rfl

/-- The stall timer of a turn-on runs on a DRIVEN axis with a STALL-TIME (R15). -/
theorem Axis.newStall_driven (x : Axis) :
    x.newStall =
      if x.config.role = .driven ∧ x.config.stallTime ≠ 0 then some ⟨x.config.stallTime, 0⟩ else none := by
  simp [Axis.newStall, Axis.driven, Timer.start]

/-- A start whose first leg the lockout permits turns it on (R67, R84). -/
theorem Axis.startOrder_on {x : Axis} {r : Resolved} {p : Int} {d : Dir} {high : Bool} {sub : Substate}
    (h : x.config.firstLeg r p = .run d high sub) (hp : x.permits d = true) (a : AxisId) (now : Time) (o : Order)
    (rest : List Order) :
    x.startOrder a now p o rest r =
      ({ x with
          queue := rest
          lines := .run d high
          stall :=
            if x.config.role = .driven ∧ x.config.stallTime ≠ 0 then some ⟨x.config.stallTime, 0⟩ else none
          motion := .moving { r.activate o (x.config.aim r.snapshot p r.target) (.run d high sub) with
            zones := firstZones o.notify sub
            substate := sub
            leg := some (x.config.aim r.snapshot p r.target).dir } },
        startedNotice a o r (x.config.aim r.snapshot p r.target) (.run d high sub) ++
          (firstZones o.notify sub).map (.zone a o.tag)) := by
  unfold Axis.startOrder
  dsimp only
  rw [h, Axis.legStart_run (by exact h), Axis.beginLeg_on rfl (by exact hp), ActiveOrder.legReport_first rfl,
    ← Axis.newStall_driven]
  rfl

section
variable {s : State} {a : AxisId} {o : Order} {rest : List Order} {g : Bool}

/-- ORDER_START on an IDLE axis does with the head order what its start finds (R62, R63). -/
theorem State.orderStart_head (hm : (s.axis a).motion = .idle) (hq : (s.axis a).queue = o :: rest)
    (hg : s.monitor.guarded a = g) {found : Start}
    (hc : (s.axis a).checkStart a s.tables g (s.monitor.limitAgainst a) o = found) :
    exec (.orderStart a) s =
      .next ((s.setAxis a ((s.axis a).started a s.timebase o rest found).1).offers
        ((s.axis a).started a s.timebase o rest found).2) := by
  subst hg
  exact congrArg Host.Outcome.next (State.take_eq (Axis.takeStart_head hm hq hc s.timebase))

/-- A start that passes its checks leaves what the start of the order leaves. -/
theorem State.orderStart_runs (hm : (s.axis a).motion = .idle) (hq : (s.axis a).queue = o :: rest)
    (hg : s.monitor.guarded a = g) {r : Resolved}
    (hc : (s.axis a).checkStart a s.tables g (s.monitor.limitAgainst a) o = .runs r) {e : Taken}
    (he : (s.axis a).startOrder a s.timebase (s.axis a).formed o rest r = e) :
    exec (.orderStart a) s = .next ((s.setAxis a e.1).offers e.2) := by
  subst he
  exact State.orderStart_head hm hq hg hc

end

/-- Settles O44: the checks of the start in their order, and its effect by the first leg and the lockout. -/
theorem startsTakeTheHead : Obligations.StartsTakeTheHead := by
  intro s a o rest hm hq x c fails
  have hfails {g : Bool} (hg : s.monitor.guarded a = g) {why : Reason}
      (hc : x.checkStart a s.tables g (s.monitor.limitAgainst a) o = .fails why) : fails why :=
    State.orderStart_head hm hq hg hc
  refine ⟨fun hg => ?_, fun hg hr => ?_, fun hg hr => ⟨fun n own hd hgone => ?_, ?_⟩⟩
  · exact State.orderStart_head hm hq hg (Axis.checkStart_guarded ..)
  · exact hfails hg (Axis.checkStart_unreferenced hr ..)
  · exact hfails hg (Axis.checkStart_gone hr (hd ▸ TableStore.place_gone hgone) _)
  intro target number station pr hplace hpr settle inRange aim leg limited conflict
  have hfound := Axis.checkStart_resolved hr (TableStore.place_eq hplace) hpr (s.monitor.limitAgainst a)
  have hreaches : c.reaches ⟨target, number, pr, settle⟩ = true ↔ inRange := AxisConfig.reaches_iff
  have hlimited :
      (c.firstLeg ⟨target, number, pr, settle⟩ x.formed).limited (s.monitor.limitAgainst a) = true ↔ limited :=
    Leg.limited_iff
  have hconflict : c.conflicts pr = true ↔ conflict := AxisConfig.conflicts_iff
  refine ⟨fun hin => ?_, fun hin hlim => ?_, fun hin hlim hcon => ?_, fun hin hlim hcon => ?_⟩
  · exact hfails hg (hfound.trans (Axis.checkResolved_outOfRange (mt hreaches.1 hin)))
  · exact hfails hg (hfound.trans (Axis.checkResolved_limited (hreaches.2 hin) (hlimited.2 hlim)))
  · exact hfails hg (hfound.trans
      (Axis.checkResolved_conflict (hreaches.2 hin) (mt hlimited.1 hlim) (hconflict.2 hcon)))
  intro begins zones p started
  have hruns := hfound.trans
    (Axis.checkResolved_runs (hreaches.2 hin) (mt hlimited.1 hlim) (mt hconflict.1 hcon))
  have hleg : c.firstLeg ⟨target, number, pr, settle⟩ x.formed = leg := rfl
  clear_value leg
  cases leg with
  | settle => exact State.orderStart_runs hm hq hg hruns (Axis.startOrder_settle hleg ..)
  | run d high sub =>
    have hbegins : begins = x.permits d := rfl
    clear_value begins
    cases hp : x.permits d with
    | false =>
      obtain rfl := hbegins.trans hp
      refine (State.orderStart_runs hm hq hg hruns (Axis.startOrder_reversing hleg hp ..)).trans ?_
      have hzones : zones = [] := by cases sub <;> exact ite_self _
      clear_value zones
      subst hzones
      rw [List.map_nil, List.append_nil]
      cases sub <;> rfl
    | true =>
      obtain rfl := hbegins.trans hp
      cases sub <;> exact State.orderStart_runs hm hq hg hruns (Axis.startOrder_on hleg hp ..)

end Sys2Proof.Machine
end

section
namespace Sys2Proof.Machine

/-! ### Requests that an Axis Controller acts on -/

/-- A request whose rule hands its axis to the Axis Controller: the axis and the notices it leaves, and the answer behind
them. -/
theorem Serves.takes {s : State} {c : ReqCode} {r : Request} {fs : List Field} (h : Serves s c r fs)
    {own : List Field → State → Answer × State} {ans : Answer} {a : AxisId} {f : Axis → Taken} {e : Taken}
    (ho : own fs (s.setLink s.link.popIntake) = (ans, (s.setLink s.link.popIntake).take a f))
    (he : f (s.axis a) = e) :
    (Host.Outcome.next (s.execute c own) : Host.Outcome State Fault Refusal) =
      .next (((s.setAxis a e.1).offers e.2).answered r ans) := by
  refine congrArg Host.Outcome.next (h.executes (t := (s.setAxis a e.1).offers e.2) ?_ (by simp))
  rw [ho, State.take_setLink, State.take_eq he]

/-- A request whose rule changes its axis and offers nothing. -/
theorem Serves.modifies {s : State} {c : ReqCode} {r : Request} {fs : List Field} (h : Serves s c r fs)
    {own : List Field → State → Answer × State} {ans : Answer} {a : AxisId} {f : Axis → Axis} {y : Axis}
    (ho : own fs (s.setLink s.link.popIntake) = (ans, (s.setLink s.link.popIntake).modifyAxis a f))
    (hy : f (s.axis a) = y) :
    (Host.Outcome.next (s.execute c own) : Host.Outcome State Fault Refusal) =
      .next ((s.setAxis a y).answered r ans) := by
  subst hy
  exact congrArg Host.Outcome.next (h.executes (t := s.modifyAxis a f) ho rfl)

/-! ### The order of a tag -/

section
variable {before after : List Order} {o : Order} {tag : Nat}

theorem filter_hasTag (ho : o.tag = tag) (hu : ∀ e ∈ before ++ after, e.tag ≠ tag) :
    (before ++ o :: after).filter (fun e => e.tag == tag) = [o] := by
  have hb : before.filter (fun e => e.tag == tag) = [] := by
    simpa using fun e he => hu e (List.mem_append_left _ he)
  have ha : after.filter (fun e => e.tag == tag) = [] := by
    simpa using fun e he => hu e (List.mem_append_right _ he)
  rw [List.filter_append, List.filter_cons_of_pos (by simpa using ho), hb, ha]
  rfl

theorem filter_otherTag (ho : o.tag = tag) (hu : ∀ e ∈ before ++ after, e.tag ≠ tag) :
    (before ++ o :: after).filter (fun e => e.tag != tag) = before ++ after := by
  rw [List.filter_append, List.filter_cons_of_neg (by simpa using ho), ← List.filter_append]
  exact List.filter_eq_self.2 (by simpa using hu)

/-- A tag that one order alone has is counted once. -/
theorem countP_hasTag (ho : o.tag = tag) (hu : ∀ e ∈ before ++ after, e.tag ≠ tag) :
    (before ++ o :: after).countP (fun e => e.tag == tag) = 1 := by
  rw [List.countP_eq_length_filter, filter_hasTag ho hu]
  rfl

end

/-! ### CANCEL -/

/-- CANCELLED is no fault, so the axis whose active order ends so is HELD (R70, R73). -/
theorem Axis.endOrder_cancelled (a : AxisId) (now : Time) (o : ActiveOrder) (x : Axis) :
    x.endOrder a now o .cancelled =
      ({ x.turnOff now with stall := none, motion := .held, holdPending := false },
        [.orderDone a o.order.tag .cancelled x.position o.corrections]) := rfl

/-- CANCEL of the tag of the active order (R73). -/
theorem Axis.cancelTag_active {x : Axis} {o : ActiveOrder} {tag : Nat} (hm : x.motion = .moving o)
    (ht : o.order.tag = tag) (a : AxisId) (now : Time) :
    x.cancelTag a now tag = x.endOrder a now o .cancelled := by
  unfold Axis.cancelTag
  rw [hm]
  exact if_pos ht

theorem Motion.afterRemoval_other {m : Motion} (h : m ≠ .waiting) (left : List Order) : m.afterRemoval left = m :=
  if_neg (fun hc => h hc.1)

/-- CANCEL of any other tag takes the orders that have it from those that wait, whatever the motion state; WAITING with
none left is IDLE (R72). -/
theorem Axis.cancelTag_unstarted {x : Axis} {tag : Nat} (hn : ∀ o, x.motion = .moving o → o.order.tag ≠ tag)
    (a : AxisId) (now : Time) :
    x.cancelTag a now tag =
      ({ x with
          queue := x.queue.filter (fun e => e.tag != tag)
          motion := x.motion.afterRemoval (x.queue.filter (fun e => e.tag != tag)) },
        (x.queue.filter (fun e => e.tag == tag)).map (x.unstartedDone a .cancelled)) := by
  unfold Axis.cancelTag
  cases hm : x.motion with
  | moving o =>
    rw [Motion.afterRemoval_other (by simp)]
    exact if_neg (hn o hm)
  | idle | held | waiting | homing | jogging | faulted => rfl

/-- CANCEL with ALL on a MOVING axis: the active order first, then those that wait (R73). -/
theorem Axis.cancelAll_moving {x : Axis} {o : ActiveOrder} (hm : x.motion = .moving o) (a : AxisId) (now : Time) :
    x.cancelAll a now =
      ({ x.turnOff now with stall := none, motion := .held, holdPending := false, queue := [] },
        .orderDone a o.order.tag .cancelled x.position o.corrections :: x.queue.map (x.unstartedDone a .cancelled)) := by
  have hposition : (x.endOrder a now o .cancelled).1.position = x.position :=
    Axis.position_congr (by simp [Axis.endOrder]) (by simp [Axis.endOrder])
  have hdone : (x.endOrder a now o .cancelled).1.unstartedDone a .cancelled = x.unstartedDone a .cancelled :=
    funext fun q => congrArg (fun p => NoticeBody.orderDone a q.tag .cancelled p 0) hposition
  unfold Axis.cancelAll Axis.cancelled
  rw [hm]
  dsimp only
  rw [hdone]
  rfl

/-- CANCEL with ALL on an axis without an active order (R72, R73). -/
theorem Axis.cancelAll_still {x : Axis} (hm : ∀ o, x.motion ≠ .moving o) (a : AxisId) (now : Time) :
    x.cancelAll a now =
      ({ x with queue := [], motion := x.motion.afterRemoval [] }, x.queue.map (x.unstartedDone a .cancelled)) := by
  unfold Axis.cancelAll
  cases h : x.motion with
  | moving o => exact absurd h (hm o)
  | idle | held | waiting | homing | jogging | faulted =>
    dsimp only
    rw [h]
    rfl

/-- CANCEL of a tag that no order has (R72). -/
theorem cancelRule_absent {s : State} {fs : List Field} (hall : carries fs .all = false)
    (ht : ∀ o ∈ (s.axis (fieldAxis fs)).moveQueue, o.tag ≠ fieldNat fs .orderTag) :
    cancelRule fs s = (.bare .noSuch, s) :=
  (if_neg (by simp [hall])).trans (if_neg (by simpa using ht))

/-- CANCEL of a tag that one order of the move queue alone has (R72, R73). -/
theorem cancelRule_tag {s : State} {fs : List Field} {before after : List Order} {o : Order}
    (hall : carries fs .all = false) (hq : (s.axis (fieldAxis fs)).moveQueue = before ++ o :: after)
    (ho : o.tag = fieldNat fs .orderTag) (hu : ∀ p ∈ before ++ after, p.tag ≠ fieldNat fs .orderTag) :
    cancelRule fs s =
      (.ok [(.removed, 1)],
        s.take (fieldAxis fs) (Axis.cancelTag (fieldAxis fs) s.timebase (fieldNat fs .orderTag))) := by
  have hheld : (s.axis (fieldAxis fs)).moveQueue.any (fun e => e.tag == fieldNat fs .orderTag) = true := by
    simp [hq, ho]
  refine (if_neg (by simp [hall])).trans ((if_pos hheld).trans ?_)
  rw [hq, countP_hasTag ho hu]
  rfl

/-- An order of a tag of its own is cancelled: what that does to the axis, answered REMOVED 1. -/
theorem Serves.cancel_tag {s : State} {r : Request} {fs : List Field} (h : Serves s .cancel r fs)
    {before after : List Order} {o : Order} {e : Taken}
    (hall : carries fs .all = false) (hq : (s.axis (fieldAxis fs)).moveQueue = before ++ o :: after)
    (ho : o.tag = fieldNat fs .orderTag) (hu : ∀ p ∈ before ++ after, p.tag ≠ fieldNat fs .orderTag)
    (he : (s.axis (fieldAxis fs)).cancelTag (fieldAxis fs) s.timebase (fieldNat fs .orderTag) = e) :
    exec .cancel s = .next (((s.setAxis (fieldAxis fs) e.1).offers e.2).answered r (.ok [(.removed, 1)])) :=
  h.takes (own := cancelRule) (cancelRule_tag hall hq ho hu) he

/-- CANCEL with ALL (R73). -/
theorem Serves.cancel_all {s : State} {r : Request} {fs : List Field} (h : Serves s .cancel r fs)
    (hall : carries fs .all = true) {e : Taken}
    (he : (s.axis (fieldAxis fs)).cancelAll (fieldAxis fs) s.timebase = e) :
    exec .cancel s =
      .next (((s.setAxis (fieldAxis fs) e.1).offers e.2).answered r
        (.ok [(.removed, (s.axis (fieldAxis fs)).moveQueue.length)])) :=
  h.takes (own := cancelRule) (if_pos hall) he

/-- Settles O42: what CANCEL does to the axis in each form, on the one order of the tag or on all. -/
theorem cancelRemovesOrders : Obligations.CancelRemovesOrders := by
  rintro s r fs a h rfl x tag done ended
  refine ⟨fun hall ht => h.reports (cancelRule_absent hall ht), fun o hall hm ht hu => ?_,
    fun before o after hall hq ht hu hn => ?_, fun o hall hm => ?_, fun hall hm => ?_⟩
  · refine (h.cancel_tag hall (before := []) (Axis.moveQueue_moving hm) ht hu (Axis.cancelTag_active hm ht _ _)).trans ?_
    rw [Axis.endOrder_cancelled, ht]
    rfl
  · have hmove : x.moveQueue = ((x.motion.active.map (·.order)).toList ++ before) ++ o :: after := by
      rw [Axis.moveQueue_eq, hq, List.append_assoc]
    have hothers : ∀ p ∈ ((x.motion.active.map (·.order)).toList ++ before) ++ after, p.tag ≠ tag := by
      intro p hp
      rw [List.append_assoc, List.mem_append] at hp
      rcases hp with hp | hp
      · cases hm : x.motion with
        | moving q =>
          rw [hm] at hp
          exact List.mem_singleton.1 hp ▸ hn q hm
        | idle | held | waiting | homing | jogging | faulted => rw [hm] at hp; cases hp
      · exact hu p hp
    refine (h.cancel_tag hall hmove ht hothers (Axis.cancelTag_unstarted hn _ _)).trans ?_
    rw [hq, filter_otherTag ht hu, filter_hasTag ht hu]
    rfl
  · have hlength : x.moveQueue.length = x.queue.length + 1 := by rw [Axis.moveQueue_moving hm]; rfl
    refine (h.cancel_all hall (Axis.cancelAll_moving hm _ _)).trans ?_
    rw [hlength]
    rfl
  · have hmove : x.moveQueue = x.queue := by
      rw [Axis.moveQueue_eq]
      cases hx : x.motion with
      | moving o => exact absurd hx (hm o)
      | idle | held | waiting | homing | jogging | faulted => rfl
    refine (h.cancel_all hall (Axis.cancelAll_still hm _ _)).trans ?_
    rw [hmove]
    simp only [Motion.afterRemoval, and_true]
    rfl

/-! ### HOLD and RELEASE -/

/-- HOLD in IDLE or WAITING (R74). -/
theorem Axis.hold_waits {x : Axis} (hm : x.motion = .idle ∨ x.motion = .waiting) :
    x.hold = { x with motion := .held, holdPending := false } := by
  unfold Axis.hold
  rcases hm with hm | hm <;> rw [hm]

/-- HOLD of an order or a homing run (R74). -/
theorem Axis.hold_flags {x : Axis} (hm : (∃ o, x.motion = .moving o) ∨ ∃ h, x.motion = .homing h) :
    x.hold = { x with holdPending := true } := by
  unfold Axis.hold
  rcases hm with ⟨o, hm⟩ | ⟨h, hm⟩ <;> rw [hm]

/-- HOLD in HELD (R74). -/
theorem Axis.hold_held {x : Axis} (hm : x.motion = .held) : x.hold = x := by
  unfold Axis.hold
  rw [hm]

/-- An accepted HOLD: what it does to the axis, and the answer that reports it (R74). -/
theorem Serves.hold_accepted {s : State} {r : Request} {fs : List Field} (h : Serves s .hold r fs) {y : Axis}
    (hr : (s.axis (fieldAxis fs)).motion.refusesHold = false) (hy : (s.axis (fieldAxis fs)).hold = y) :
    exec .hold s =
      .next ((s.setAxis (fieldAxis fs) y).answered r
        (.ok [(.motion, y.motion.code), (.holdPending, flagValue y.holdPending)])) := by
  refine h.modifies (own := holdRule) ?_ hy
  subst hy
  exact if_neg (by simp [hr])

/-- RELEASE: what it does to the axis, and the answer that reports it (R75). -/
theorem Serves.release {s : State} {r : Request} {fs : List Field} (h : Serves s .release r fs) {y : Axis}
    (hy : (s.axis (fieldAxis fs)).release = y) :
    exec .release s = .next ((s.setAxis (fieldAxis fs) y).answered r (.ok [(.motion, y.motion.code)])) := by
  refine h.modifies (own := releaseRule) ?_ hy
  subst hy
  rfl

/-! ### STOP -/

/-- STOP of an axis in motion ends what it does, STOPPED (R76). -/
theorem Axis.halt_inMotion {x : Axis} (h : x.motion.inMotion = true) (a : AxisId) (now : Time) :
    x.halt a now =
      ({ x.turnOff now with stall := none, motion := .held, holdPending := false },
        (x.endOperation a now .stopped).2) := by
  unfold Axis.halt Axis.endOperation
  cases hm : x.motion with
  | moving | homing | jogging => rfl
  | idle | held | waiting | faulted => rw [hm] at h; cases h

/-- STOP of an axis that stands still and is not FAULTED (R76). -/
theorem Axis.halt_still {x : Axis} (h : x.motion = .idle ∨ x.motion = .waiting ∨ x.motion = .held) (a : AxisId)
    (now : Time) : x.halt a now = ({ x with motion := .held, holdPending := false }, []) := by
  unfold Axis.halt
  rcases h with h | h | h <;> rw [h]

/-- STOP of a FAULTED axis (R76). -/
theorem Axis.halt_faulted {x : Axis} (h : x.motion = .faulted) (a : AxisId) (now : Time) :
    x.halt a now = ({ x with holdPending := false }, []) := by
  unfold Axis.halt
  rw [h]

/-- What STOP ends on an axis leaves its position. -/
theorem Axis.halt_position (a : AxisId) (now : Time) (x : Axis) : (x.halt a now).1.position = x.position :=
  have hacts := x.acts_halt a now
  Axis.position_congr hacts.config (by rw [hacts.counting])

/-- STOP with FLUSH or without, behind what it ends: the orders that have not started go, oldest first (R76). -/
theorem Axis.stop_eq {x : Axis} {a : AxisId} {now : Time} {e : Taken} (he : x.halt a now = e)
    (hq : e.1.queue = x.queue) (flush : Bool) :
    x.stop a now flush =
      ({ e.1 with queue := if flush then [] else x.queue },
        e.2 ++ if flush then x.queue.map (x.unstartedDone a .cancelled) else []) := by
  have hdone : e.1.unstartedDone a .cancelled = x.unstartedDone a .cancelled :=
    funext fun o => congrArg (fun p => NoticeBody.orderDone a o.tag .cancelled p 0) (he ▸ x.halt_position a now)
  unfold Axis.stop Axis.flush Axis.cancelled
  rw [he]
  cases flush with
  | true => exact congrArg (Prod.mk _) (by rw [if_pos rfl, ← hq, ← hdone]; rfl)
  | false => exact congrArg (fun q => (({ e.1 with queue := q }, e.2 ++ []) : Taken)) hq

/-- STOP answers with the motion state it leaves and the orders it removed (R76). -/
theorem stopRule_eq {s : State} {fs : List Field} {e : Taken}
    (he : (s.axis (fieldAxis fs)).halt (fieldAxis fs) s.timebase = e)
    (hq : e.1.queue = (s.axis (fieldAxis fs)).queue) :
    stopRule fs s =
      (.ok [(.motion, e.1.motion.code),
          (.removed, if fieldInt fs .flush == 1 then ((s.axis (fieldAxis fs)).queue.length : Int) else 0)],
        s.take (fieldAxis fs) (Axis.stop (fieldAxis fs) s.timebase (fieldInt fs .flush == 1))) := by
  unfold stopRule
  dsimp only
  rw [State.take_axis, if_pos rfl, Axis.stop_eq he hq]

/-- STOP: what it does to the axis, and the answer that reports it (R76). -/
theorem Serves.stop {s : State} {r : Request} {fs : List Field} (h : Serves s .stop r fs) {e : Taken}
    (he : (s.axis (fieldAxis fs)).halt (fieldAxis fs) s.timebase = e)
    (hq : e.1.queue = (s.axis (fieldAxis fs)).queue) :
    let x := s.axis (fieldAxis fs)
    let flush := fieldInt fs .flush == 1
    exec .stop s =
      .next (((s.setAxis (fieldAxis fs) { e.1 with queue := if flush then [] else x.queue }).offers
          (e.2 ++ if flush then x.queue.map (x.unstartedDone (fieldAxis fs) .cancelled) else [])).answered r
        (.ok [(.motion, e.1.motion.code), (.removed, if flush then (x.queue.length : Int) else 0)])) :=
  h.takes (own := stopRule) (stopRule_eq he hq) (Axis.stop_eq he hq _)

/-- STOP of an axis in motion: HELD with its lines off, and one notice of what it ended (R76). -/
theorem Serves.stop_inMotion {s : State} {r : Request} {fs : List Field} (h : Serves s .stop r fs)
    (hm : (s.axis (fieldAxis fs)).motion.inMotion = true) {b : NoticeBody}
    (hb : ((s.axis (fieldAxis fs)).endOperation (fieldAxis fs) s.timebase .stopped).2 = [b]) :
    let x := s.axis (fieldAxis fs)
    let flush := fieldInt fs .flush == 1
    exec .stop s =
      .next (((s.setAxis (fieldAxis fs) { x.turnOff s.timebase with
            stall := none, motion := .held, holdPending := false, queue := if flush then [] else x.queue }).offers
          (b :: if flush then x.queue.map (x.unstartedDone (fieldAxis fs) .cancelled) else [])).answered r
        (.ok [(.motion, 1), (.removed, if flush then (x.queue.length : Int) else 0)])) :=
  h.stop (e := (_, [b])) ((Axis.halt_inMotion hm _ _).trans (congrArg (Prod.mk _) hb)) (Axis.turnOff_queue ..)

/-- Settles O43: HOLD by `Axis.hold`, RELEASE by `Axis.release` and STOP by `Axis.halt`, motion state by motion state. -/
theorem holdReleaseAndStopActByState : Obligations.HoldReleaseAndStopActByState := by
  refine ⟨?_, ?_⟩
  · rintro s r fs a rfl x
    refine ⟨fun h => ⟨fun hm => ?_, fun hm => ?_, fun hm => ?_, fun hm => ?_⟩, fun h => ⟨fun hm => ?_, fun hm => ?_⟩⟩
    · have haccepts : x.motion.refusesHold = false := by rcases hm with hm | hm <;> rw [hm] <;> rfl
      exact h.hold_accepted haccepts (Axis.hold_waits hm)
    · have haccepts : x.motion.refusesHold = false := by rcases hm with ⟨_, hm⟩ | ⟨_, hm⟩ <;> rw [hm] <;> rfl
      exact h.hold_accepted haccepts (Axis.hold_flags hm)
    · have haccepts : x.motion.refusesHold = false := by rw [hm]; rfl
      refine (h.hold_accepted haccepts (Axis.hold_held hm)).trans ?_
      rw [State.setAxis_self, hm]
      rfl
    · have hrefuses : x.motion.refusesHold = true := by rcases hm with ⟨_, hm⟩ | hm <;> rw [hm] <;> rfl
      exact h.reports (own := holdRule) (if_pos hrefuses)
    · exact h.release (y := { x with motion := .idle, holdPending := false })
        (congrArg (fun m => ({ x with motion := m, holdPending := false } : Axis)) (if_pos hm))
    · exact h.release (y := { x with holdPending := false })
        (congrArg (fun m => ({ x with motion := m, holdPending := false } : Axis)) (if_neg hm))
  · rintro s r fs a h rfl x flush left flushed ans off
    refine ⟨fun o hm => ?_, fun r hm => ?_, fun j hm => ?_, fun hm => ?_, fun hm => ?_⟩
    · exact h.stop_inMotion (by rw [hm]; rfl) (by rw [Axis.endOperation_notices, hm])
    · exact h.stop_inMotion (by rw [hm]; rfl) (by rw [Axis.endOperation_notices, hm])
    · exact h.stop_inMotion (by rw [hm]; rfl) (by rw [Axis.endOperation_notices, hm])
    · exact h.stop (Axis.halt_still hm _ _) rfl
    · refine (h.stop (Axis.halt_faulted hm _ _) rfl).trans ?_
      show Host.Outcome.next (State.answered _ r (.ok [(.motion, (x.motion.code : Int)), _])) = _
      rw [hm]
      rfl

end Sys2Proof.Machine
end

section
namespace Sys2Proof.Machine

/-! ### Where a leg start aims -/

/-- Inside the window, as bounds on d (R80). -/
theorem insideWindow_iff {pr : Profile} {d : Int} :
    insideWindow pr d = true ↔ -(pr.window : Int) ≤ d ∧ d ≤ pr.window := within_iff

theorem AxisConfig.aim_linear {c : AxisConfig} (h : c.kind = .linear) (pr : Profile) (p t : Int) :
    c.aim pr p t = aimLinear pr.approach p t := by
  unfold AxisConfig.aim
  rw [h]

theorem AxisConfig.aim_rotary {c : AxisConfig} (h : c.kind = .rotary) (pr : Profile) (p t : Int) :
    c.aim pr p t = aimRotary pr.approach c.rotPolicy c.modulus pr.window p t := by
  unfold AxisConfig.aim
  rw [h]

/-- On a LINEAR axis d is the distance to the target, counted for or against A (R81). -/
theorem aimLinear_dist (side : Approach) (p t : Int) :
    (aimLinear side p t).dist = t - p ∨ (aimLinear side p t).dist = -(t - p) := by
  cases side with
  | either =>
    unfold aimLinear
    by_cases h : p ≤ t <;> simp [h]
  | fromBelow => exact Or.inl rfl
  | fromAbove => exact Or.inr (Int.neg_sub t p).symm

/-- A LINEAR approach that is not beyond its target runs straight to it (R81). -/
theorem aimLinear_ahead {side : Approach} {p t : Int}
    (h : side = .either ∨ side = .fromBelow ∧ p < t ∨ side = .fromAbove ∧ t < p) :
    aimLinear side p t = ⟨if p ≤ t then .positive else .negative, |t - p|⟩ := by
  have hfar (hpt : p ≤ t) : |t - p| = t - p := abs_of_nonneg (by omega)
  have hback (hpt : t < p) : |t - p| = p - t := by rw [abs_of_neg (by omega), Int.neg_sub]
  rcases h with rfl | ⟨rfl, hpt⟩ | ⟨rfl, hpt⟩
  · unfold aimLinear
    by_cases hpt : p ≤ t
    · simp [hpt, hfar hpt]
    · simp [hpt, hback (Int.not_le.1 hpt)]
  · rw [if_pos hpt.le, hfar hpt.le]
    rfl
  · rw [if_neg (Int.not_le.2 hpt), hback hpt]
    rfl

section
variable {w f g : Int} (dir : Dir)

/-- Outside the window d is the distance in direction A (R82). -/
theorem rotaryDist_outside (hf : w < f) (hg : w < g) :
    rotaryDist w dir f g = if dir = .positive then f else g := by
  unfold rotaryDist
  rw [if_neg (by omega)]
  cases dir <;> rfl

/-- Inside the window with the forward way no longer, d is that way, counted against A when A is NEGATIVE (R82). -/
theorem rotaryDist_forward (hfg : f ≤ g) (hf : f ≤ w) :
    rotaryDist w dir f g = if dir = .positive ∨ f = g then f else -f := by
  unfold rotaryDist
  rw [min_eq_left hfg]
  by_cases h : f = g
  · cases dir <;> simp [h]
  · have hlt : f < g := by omega
    cases dir <;> simp [h, hlt, hf]

/-- Inside the window with the reverse way shorter, d is that way, counted against A when A is POSITIVE (R82). -/
theorem rotaryDist_reverse (hfg : g < f) (hg : g ≤ w) :
    rotaryDist w dir f g = if dir = .positive then -g else g := by
  unfold rotaryDist
  rw [min_eq_right hfg.le]
  cases dir <;> simp [hfg.ne', hfg.not_gt, hg]

/-- Where one of the two ways is inside the window, so is d. -/
theorem rotaryDist_inside (hf : 0 ≤ f) (hg : 0 ≤ g) (h : f ≤ w ∨ g ≤ w) :
    -w ≤ rotaryDist w dir f g ∧ rotaryDist w dir f g ≤ w := by
  by_cases hfg : f ≤ g
  · rw [rotaryDist_forward dir hfg (by omega)]
    split <;> omega
  · rw [rotaryDist_reverse dir (by omega) (by omega)]
    split <;> omega

end

/-! ### The kind of leg -/

section
variable {kind : AxisKind} {pr : Profile} {aim : Aim}

/-- A leg start inside the window finds nothing to run (R83 step 2). -/
theorem planLeg_inside (h : -(pr.window : Int) ≤ aim.dist ∧ aim.dist ≤ pr.window) (k : Nat) :
    planLeg kind pr k aim = .settle := if_pos (insideWindow_iff.2 h)

/-- A one-sided LINEAR approach beyond the window takes up (R83 step 3). -/
theorem planLeg_beyond (hk : kind = .linear) (hs : pr.approach ≠ .either) (h : aim.dist < -(pr.window : Int))
    (k : Nat) :
    planLeg kind pr k aim =
      .run aim.dir.opposite (decide (pr.slow ≠ 0 ∧ (pr.slow : Int) < pr.takeup - aim.dist)) .takeup := by
  unfold planLeg
  rw [if_neg (fun hin => absurd (insideWindow_iff.1 hin).1 (by omega)), if_pos ⟨hk, hs, h⟩]
  by_cases hslow : pr.slow = 0 <;> simp [hslow]

/-- Short of the window a leg runs in direction A: SHORT for a correction or within C, else FAST with HIGH where d is
more than S, else NORMAL (R83 step 4). -/
theorem planLeg_ahead (h : (pr.window : Int) < aim.dist) (k : Nat) :
    (0 < k ∨ aim.dist ≤ pr.cut → planLeg kind pr k aim = .run aim.dir false (.slow .short)) ∧
    (k = 0 → (pr.cut : Int) < aim.dist → pr.slow ≠ 0 → (pr.slow : Int) < aim.dist →
      planLeg kind pr k aim = .run aim.dir true .fast) ∧
    (k = 0 → (pr.cut : Int) < aim.dist → pr.slow = 0 ∨ aim.dist ≤ pr.slow →
      planLeg kind pr k aim = .run aim.dir false (.slow .normal)) := by
  unfold planLeg
  rw [if_neg (fun hin => absurd (insideWindow_iff.1 hin).2 (by omega)),
    if_neg (fun ⟨_, _, hbeyond⟩ => absurd hbeyond (by omega))]
  refine ⟨fun hshort => if_pos hshort, fun hk hcut hslow hfar => ?_, fun hk hcut hnear => ?_⟩
  · rw [if_neg (by omega), if_pos ⟨hslow, hfar⟩]
  · rw [if_neg (by omega), if_neg (by omega)]

end

/-! ### Zones reported -/

/-- The zones of a list that an order with NOTIFY 1 has not reported (R97). -/
def ActiveOrder.unreported (zs : List Zone) (o : ActiveOrder) : List Zone :=
  zs.filter (fun z => o.order.notify && !o.zones.contains z)

/-- An order that reports the zones of a list, with its notices. -/
def ActiveOrder.reports (a : AxisId) (zs : List Zone) (o : ActiveOrder) : ActiveOrder × List NoticeBody :=
  ({ o with zones := o.zones ++ o.unreported zs }, (o.unreported zs).map (.zone a o.order.tag))

theorem ActiveOrder.reports_nil (a : AxisId) (o : ActiveOrder) : o.reports a [] = (o, []) :=
  congrArg (fun zs => ({ o with zones := zs }, ([] : List NoticeBody))) (List.append_nil o.zones)

theorem ActiveOrder.unreported_single (z : Zone) (o : ActiveOrder) :
    o.unreported [z] = if o.order.notify = true ∧ z ∉ o.zones then [z] else [] := by
  simp [unreported, List.filter_singleton]

theorem ActiveOrder.report_eq (a : AxisId) (z : Zone) (o : ActiveOrder) : o.report a z = o.reports a [z] := by
  unfold ActiveOrder.report
  cases h : o.order.notify && !o.zones.contains z with
  | true =>
    rw [ActiveOrder.reports, show o.unreported [z] = [z] from List.filter_cons_of_pos h]
    rfl
  | false =>
    rw [ActiveOrder.reports, show o.unreported [z] = [] from List.filter_cons_of_neg (by rw [h]; decide)]
    exact (o.reports_nil a).symm

/-- Zones are reported one list behind the other as they are at once, where the lists name different ones. -/
theorem ActiveOrder.unreported_behind {zs ws : List Zone} (h : ∀ z ∈ ws, z ∉ zs) (a : AxisId) (o : ActiveOrder) :
    (o.reports a zs).1.unreported ws = o.unreported ws := by
  refine List.filter_congr (fun z hz => ?_)
  have hnot : z ∉ o.unreported zs := fun hin => h z hz (List.mem_filter.1 hin).1
  simp [reports, hnot]

/-! ### An order that goes on -/

/-- The order of an axis goes on in a substate and reports the zones of a list. -/
def Axis.goesOn (a : AxisId) (o : ActiveOrder) (sub : Substate) (zs : List Zone) (x : Axis) : Taken :=
  ({ x with motion := .moving { (o.reports a zs).1 with substate := sub } }, (o.reports a zs).2)

/-- An order that has reported some zones and goes on with others reports both. -/
theorem Axis.goesOn_behind {zs ws : List Zone} (h : ∀ z ∈ ws, z ∉ zs) (a : AxisId) (o : ActiveOrder)
    (sub : Substate) (x : Axis) :
    ((x.goesOn a (o.reports a zs).1 sub ws).1, (o.reports a zs).2 ++ (x.goesOn a (o.reports a zs).1 sub ws).2) =
      x.goesOn a o sub (zs ++ ws) := by
  have hboth : o.unreported (zs ++ ws) = o.unreported zs ++ o.unreported ws := List.filter_append ..
  have hbehind := o.unreported_behind h a
  unfold Axis.goesOn
  rw [show (o.reports a zs).1.reports a ws =
      ({ o with zones := o.zones ++ o.unreported zs ++ o.unreported ws },
        (o.unreported ws).map (.zone a o.order.tag)) by rw [← hbehind]; rfl]
  simp only [ActiveOrder.reports, hboth, List.append_assoc, List.map_append]

theorem Axis.goesOn_nil (a : AxisId) (o : ActiveOrder) (sub : Substate) (x : Axis) :
    x.goesOn a o sub [] = ({ x with motion := .moving { o with substate := sub } }, []) := by
  unfold Axis.goesOn
  rw [ActiveOrder.reports_nil]

/-- An order that stays in its substate. -/
theorem Axis.goesOn_stays {o : ActiveOrder} {sub : Substate} (h : o.substate = sub) (a : AxisId) (x : Axis) :
    x.goesOn a o sub [] = ({ x with motion := .moving o }, []) := by
  subst h
  exact x.goesOn_nil a o _

theorem Axis.enterSettle_eq (a : AxisId) (o : ActiveOrder) (x : Axis) :
    x.enterSettle a o = x.goesOn a o (.settle ⟨o.settle, 0⟩) [.windowEntered] := by
  unfold Axis.enterSettle
  rw [ActiveOrder.report_eq]
  rfl

/-- The zone that an order outside the window has reached: PASSED beyond it (R97). -/
def ActiveOrder.passed (o : ActiveOrder) : List Zone := if o.dist < -(o.snapshot.window : Int) then [.passed] else []

theorem ActiveOrder.eq_of_mem_passed {o : ActiveOrder} {z : Zone} (h : z ∈ o.passed) : z = .passed := by
  unfold ActiveOrder.passed at h
  split at h
  · exact List.mem_singleton.1 h
  · cases h

theorem Axis.enterCoast_eq (a : AxisId) (o : ActiveOrder) (x : Axis) :
    x.enterCoast a o = x.goesOn a o (.coast ⟨x.config.restTime, 0⟩) o.passed := by
  have hreport :
      (if o.dist < -(o.snapshot.window : Int) then o.report a .passed else (o, [])) = o.reports a o.passed := by
    rw [ActiveOrder.report_eq, ActiveOrder.passed, apply_ite (o.reports a), ActiveOrder.reports_nil]
  unfold Axis.enterCoast
  rw [hreport]
  rfl

/-! ### What a leg start does -/

/-- The zones that a leg reaches when its lines turn on: SLOW-ENTERED in SLOW (R97). -/
def Substate.begun : Substate → List Zone
  | .slow _ => [.slowEntered]
  | .takeup | .fast | .coast _ | .settle _ | .reversing _ => []

theorem ActiveOrder.legReport_reports (a : AxisId) (sub : Substate) (o : ActiveOrder) :
    o.legReport a sub = o.reports a sub.begun := by
  cases sub with
  | slow k => exact o.report_eq a .slowEntered
  | takeup | fast | coast | settle | reversing => exact (o.reports_nil a).symm

section
variable {x : Axis} {o : ActiveOrder} {p : Int} {d : Dir} {high : Bool} {sub : Substate} {limited : Dir → Bool}

theorem Axis.legStart_settles
    (h : planLeg x.config.kind o.snapshot o.corrections (x.config.aim o.snapshot p o.target) = .settle) (a : AxisId)
    (now : Time) (limited : Dir → Bool) :
    x.legStart a now limited p o =
      x.goesOn a (o.aimed (x.config.aim o.snapshot p o.target)) (.settle ⟨o.settle, 0⟩) [.windowEntered] :=
  (Axis.legStart_settle h a now limited).trans (x.enterSettle_eq a _)

/-- A leg start against a limit window ends the order (R84). -/
theorem Axis.legStart_limited
    (h : planLeg x.config.kind o.snapshot o.corrections (x.config.aim o.snapshot p o.target) = .run d high sub)
    (hl : limited d = true) (a : AxisId) (now : Time) :
    x.legStart a now limited p o = x.endOrder a now o .limited := by
  rw [Axis.legStart_run h]
  exact if_pos hl

/-- A leg start that the lockout forbids waits for it with no leg begun (R85). -/
theorem Axis.legStart_locked
    (h : planLeg x.config.kind o.snapshot o.corrections (x.config.aim o.snapshot p o.target) = .run d high sub)
    (hl : limited d = false) (hp : x.permits d = false) (a : AxisId) (now : Time) :
    x.legStart a now limited p o =
      ({ x with motion := .moving { o.aimed (x.config.aim o.snapshot p o.target) with substate := .reversing d } },
        []) := by
  rw [Axis.legStart_run h, Axis.beginLeg_locked hl hp]

/-- A leg start that nothing forbids turns its lines on, and the leg has begun (R84). -/
theorem Axis.legStart_on
    (h : planLeg x.config.kind o.snapshot o.corrections (x.config.aim o.snapshot p o.target) = .run d high sub)
    (hl : limited d = false) (hp : x.permits d = true) (a : AxisId) (now : Time) :
    x.legStart a now limited p o =
      (x.turnOn d high).goesOn a
        { o.aimed (x.config.aim o.snapshot p o.target) with leg := some (x.config.aim o.snapshot p o.target).dir } sub
        sub.begun := by
  rw [Axis.legStart_run h, Axis.beginLeg_on hl hp, ActiveOrder.legReport_reports]
  rfl

end

/-- Settles O45: the aim and the plan on a LINEAR and on a ROTARY axis, and the effect of a leg start by its plan, the
limit question and the lockout. -/
theorem legStartsChooseDirectionAndLeg : Obligations.LegStartsChooseDirectionAndLeg := by
  refine ⟨fun c pr k p t hc => ?_, fun c pr p t hc _ => ?_, fun c pr k p t hc hm => ?_, fun a now l p o x => ?_⟩
  · rw [AxisConfig.aim_linear hc]
    intro w plan inside
    refine ⟨fun hin => ?_, fun hs => aimLinear_ahead (Or.inl hs), fun hs => by rw [hs]; rfl,
      fun hs => by rw [hs]; rfl, fun hout hs hpt => ?_, fun hout hs hpt => ?_, fun hout hs => ?_⟩
    · refine planLeg_inside ?_ k
      rcases aimLinear_dist pr.approach p t with hd | hd <;> rw [hd] <;> omega
    · have haim : aimLinear pr.approach p t = ⟨.positive, t - p⟩ := by rw [hs]; rfl
      show planLeg _ _ _ (aimLinear pr.approach p t) = _
      rw [haim, planLeg_beyond hc (by rw [hs]; decide) (by show t - p < _; omega)]
      rfl
    · have haim : aimLinear pr.approach p t = ⟨.negative, p - t⟩ := by rw [hs]; rfl
      show planLeg _ _ _ (aimLinear pr.approach p t) = _
      rw [haim, planLeg_beyond hc (by rw [hs]; decide) (by show p - t < _; omega)]
      rfl
    · have hfar : (pr.window : Int) < |t - p| := by
        rw [lt_abs]
        omega
      simp only [plan, aimLinear_ahead hs]
      exact planLeg_ahead (pr := pr) (aim := ⟨_, |t - p|⟩) hfar k
  · intro f g aim
    have haim : aim = aimRotary pr.approach c.rotPolicy c.modulus pr.window p t := AxisConfig.aim_rotary hc ..
    have hdist : aim.dist = rotaryDist pr.window aim.dir f g := by rw [haim]; rfl
    have hdir : aim.dir = rotaryDir pr.approach c.rotPolicy f g := by rw [haim]; rfl
    refine ⟨fun hs => ?_, fun hs => ?_, fun hs hr => ?_, fun hs hr => ?_, fun hs hr => ?_, ?_, ?_, ?_⟩
    · rw [hdir, hs]; rfl
    · rw [hdir, hs]; rfl
    · rw [hdir, hs, hr]; rfl
    · rw [hdir, hs, hr]; rfl
    · rw [hdir, hs, hr]; rfl
    · exact fun ⟨hf, hg⟩ => hdist.trans (rotaryDist_outside _ hf hg)
    · exact fun ⟨hfg, hf⟩ => hdist.trans (rotaryDist_forward _ hfg hf)
    · exact fun ⟨hfg, hg⟩ => hdist.trans (rotaryDist_reverse _ hfg hg)
  · intro f g aim e plan
    have hdist : aim.dist = rotaryDist pr.window aim.dir f g := by
      show (c.aim pr p t).dist = rotaryDist _ (c.aim pr p t).dir f g
      rw [AxisConfig.aim_rotary hc]
      rfl
    have hmod : (c.modulus : Int) ≠ 0 := by omega
    refine ⟨fun hin => planLeg_inside ?_ k, fun hf hg => ?_⟩
    · rw [hdist]
      exact rotaryDist_inside _ (Int.emod_nonneg _ hmod) (Int.emod_nonneg _ hmod) hin
    · have he : aim.dist = e := hdist.trans (rotaryDist_outside _ hf hg)
      have hfar : (pr.window : Int) < aim.dist := by
        rw [he]
        show _ < if aim.dir = .positive then f else g
        split <;> assumption
      rw [← he]
      exact planLeg_ahead hfar k
  · intro aim aimed leg start fresh
    have hfresh (z : Zone) : fresh z = o.unreported [z] := (o.unreported_single z).symm
    refine ⟨fun hleg => ?_, fun d h sub hleg => ⟨fun hl => ?_, fun hl hp => ?_, fun hl hp => ?_⟩⟩
    · rw [hfresh]
      exact Axis.legStart_settles hleg a now l
    · exact Axis.legStart_limited hleg hl a now
    · exact Axis.legStart_locked hleg hl hp a now
    · intro zones
      have hzones : zones = o.unreported sub.begun := by
        cases sub with
        | slow k => exact hfresh .slowEntered
        | takeup | fast | coast | settle | reversing => rfl
      rw [hzones, ← Axis.newStall_driven]
      exact Axis.legStart_on hleg hl hp a now

end Sys2Proof.Machine
end

section
namespace Sys2Proof.Machine

/-! ### The lines in an approach -/

/-- Turning off takes HIGH with it, whether it has been turned off before or not (R109). -/
theorem Axis.turnOff_setHigh (now : Time) (high : Bool) (x : Axis) : (x.setHigh high).turnOff now = x.turnOff now := by
  cases hl : x.lines with
  | off => rw [show x.setHigh high = x by unfold Axis.setHigh; rw [hl]]
  | run d h =>
    rw [x.setHigh_of_run _ _ _ hl, x.turnOff_of_run _ _ _ hl]
    rfl

/-- HIGH that is off stays off. -/
theorem Axis.setHigh_of_low {x : Axis} (h : x.lines.high = false) : x.setHigh false = x := by
  unfold Axis.setHigh
  split
  · rfl
  · rename_i d e hl
    rw [hl] at h
    obtain rfl : e = false := h
    rw [← hl]

/-! ### A position change in each substate -/

theorem insideWindow_false_iff {pr : Profile} {d : Int} :
    insideWindow pr d = false ↔ ¬ (-(pr.window : Int) ≤ d ∧ d ≤ pr.window) := by
  rw [← insideWindow_iff, Bool.not_eq_true]

section
variable {o : ActiveOrder} (a : AxisId) (now : Time) (x : Axis)

/-- The cut of a leg outside the window coasts (R88). -/
theorem Axis.cut_coasts (h : insideWindow o.snapshot o.dist = false) :
    x.cut a now o = (x.turnOff now).goesOn a o (.coast ⟨x.config.restTime, 0⟩) ([.cutEntered] ++ o.passed) := by
  have hother : ∀ z ∈ o.passed, z ∉ [Zone.cutEntered] := fun z hz => by
    rw [ActiveOrder.eq_of_mem_passed hz]
    decide
  unfold Axis.cut
  rw [ActiveOrder.report_eq]
  dsimp only
  rw [h, if_neg Bool.false_ne_true, Axis.enterCoast_eq, Axis.turnOff_config]
  exact Axis.goesOn_behind hother a o _ _

/-- The cut of a leg inside the window settles (R88). -/
theorem Axis.cut_settles (h : insideWindow o.snapshot o.dist = true) :
    x.cut a now o = (x.turnOff now).goesOn a o (.settle ⟨o.settle, 0⟩) [.cutEntered, .windowEntered] := by
  unfold Axis.cut
  rw [ActiveOrder.report_eq]
  dsimp only
  rw [h, if_pos rfl, Axis.enterSettle_eq]
  exact Axis.goesOn_behind (by decide) a o _ _

/-- In FAST with d at S or less HIGH turns off, SLOW-ENTERED is reported, and the leg does what a normal leg in SLOW
does (R87). -/
theorem Axis.fastMoved_slows (h : o.dist ≤ o.snapshot.slow) {y : Axis} {sub : Substate} {zs : List Zone}
    (hnew : ∀ z ∈ zs, z ∉ [Zone.slowEntered])
    (hslow : (x.setHigh false).slowMoved a now .normal (o.reports a [.slowEntered]).1 =
      y.goesOn a (o.reports a [.slowEntered]).1 sub zs) :
    x.fastMoved a now o = y.goesOn a o sub ([.slowEntered] ++ zs) := by
  unfold Axis.fastMoved
  rw [if_pos h, ActiveOrder.report_eq]
  dsimp only
  rw [hslow]
  exact Axis.goesOn_behind hnew a o sub y

/-- A position change in FAST that reaches S and C at once outside the window (R87, R88). -/
theorem Axis.fastMoved_coasts (hslow : o.dist ≤ o.snapshot.slow) (hcut : o.dist ≤ o.snapshot.cut)
    (h : insideWindow o.snapshot o.dist = false) :
    x.fastMoved a now o =
      (x.turnOff now).goesOn a o (.coast ⟨x.config.restTime, 0⟩) ([.slowEntered, .cutEntered] ++ o.passed) := by
  have hother : ∀ z ∈ [Zone.cutEntered] ++ o.passed, z ∉ [Zone.slowEntered] := fun z hz => by
    rcases List.mem_append.1 hz with hz | hz
    · rw [List.mem_singleton.1 hz]
      decide
    · rw [ActiveOrder.eq_of_mem_passed hz]
      decide
  refine Axis.fastMoved_slows a now x hslow hother ((if_pos hcut).trans ?_)
  rw [Axis.cut_coasts (o := (o.reports a [.slowEntered]).1) a now _ h, Axis.turnOff_setHigh, Axis.setHigh_config]
  rfl

/-- A position change in FAST that reaches S and C at once inside the window (R87, R88). -/
theorem Axis.fastMoved_settles (hslow : o.dist ≤ o.snapshot.slow) (hcut : o.dist ≤ o.snapshot.cut)
    (h : insideWindow o.snapshot o.dist = true) :
    x.fastMoved a now o =
      (x.turnOff now).goesOn a o (.settle ⟨o.settle, 0⟩) [.slowEntered, .cutEntered, .windowEntered] := by
  refine Axis.fastMoved_slows a now x hslow (by decide) ((if_pos hcut).trans ?_)
  rw [Axis.cut_settles (o := (o.reports a [.slowEntered]).1) a now _ h, Axis.turnOff_setHigh]
  rfl

/-- In TAKEUP before the take-up point the leg runs on, without HIGH once S or less is left to run (R86). -/
theorem Axis.takeupMoved_before (limited : Dir → Bool) (h : o.dist < o.snapshot.takeup) :
    x.takeupMoved a now limited o =
      ({ (if (o.snapshot.takeup : Int) - o.dist ≤ o.snapshot.slow then x.setHigh false else x) with
          motion := .moving o }, []) := by
  unfold Axis.takeupMoved
  rw [if_neg (Int.not_le.2 h)]
  by_cases hs : (o.snapshot.takeup : Int) - o.dist ≤ o.snapshot.slow
  · cases hh : x.lines.high with
    | true => simp [hs]
    | false => simp [hs, Axis.setHigh_of_low hh]
  · simp [hs]

/-- In COAST outside the window the axis coasts on (R90). -/
theorem Axis.coastMoved_on {t : Timer} (hs : o.substate = .coast t) (h : insideWindow o.snapshot o.dist = false) :
    x.coastMoved a o = x.goesOn a o (.coast t) o.passed := by
  unfold Axis.coastMoved ActiveOrder.passed
  rw [h, if_neg Bool.false_ne_true]
  split
  · rw [ActiveOrder.report_eq, ← hs]
    rfl
  · exact (Axis.goesOn_stays hs a x).symm

end

/-- The order of an axis whose position has changed by one count in direction e (R80). -/
def ActiveOrder.moved (e : Dir) (o : ActiveOrder) : ActiveOrder :=
  { o with dist := if e = o.dir then o.dist - 1 else o.dist + 1 }

/-- What an axis with an order in a substate does with a new d (R80). -/
def Axis.reacts (a : AxisId) (now : Time) (limited : Dir → Bool) (o : ActiveOrder) (x : Axis) : Substate → Taken
  | .takeup => x.takeupMoved a now limited o
  | .fast => x.fastMoved a now o
  | .slow k => x.slowMoved a now k o
  | .coast _ => x.coastMoved a o
  | .settle _ => x.settleMoved a o
  | .reversing _ => ({ x with motion := .moving o }, [])

theorem Axis.positionMoved_eq {x : Axis} {o : ActiveOrder} {sub : Substate} (hm : x.motion = .moving o)
    (hs : o.substate = sub) (a : AxisId) (now : Time) (limited : Dir → Bool) (e : Dir) :
    x.positionMoved a now limited e = x.reacts a now limited (o.moved e) sub := by
  subst hs
  obtain ⟨_, _, _, _, _, _, _, _, _, sub, _, _, _⟩ := o
  unfold Axis.positionMoved
  rw [hm]
  cases sub <;> rfl

/-- Settles O46: the substate picks the reaction, d picks its branch, and every branch is the order going on or a leg
start. -/
theorem positionChangesRunTheApproach : Obligations.PositionChangesRunTheApproach := by
  intro a now l e x o hm d w inside r reached goes rest settle passed
  have hgoes {y : Axis} {sub new : Substate} {zs : List Zone} (hs : o.substate = sub)
      (h : x.reacts a now l (o.moved e) sub = y.goesOn a (o.moved e) new zs) : goes y new zs :=
    (Axis.positionMoved_eq hm hs a now l e).trans h
  have hstays {y : Axis} {sub : Substate} (hs : o.substate = sub) :
      (({ y with motion := .moving (o.moved e) }, []) : Taken) = y.goesOn a (o.moved e) sub [] :=
    (Axis.goesOn_stays (o := o.moved e) hs a y).symm
  have hin (h : inside) : insideWindow (o.moved e).snapshot (o.moved e).dist = true := insideWindow_iff.2 h
  have hout (h : ¬ inside) : insideWindow (o.moved e).snapshot (o.moved e).dist = false := insideWindow_false_iff.2 h
  have hacts := x.acts_positionMoved a now l e
  refine ⟨fun hs hfar => hgoes hs ?_, fun hs hslow hcut => hgoes hs ?_, fun hs hslow hcut hw => hgoes hs ?_,
    fun hs hslow hcut hw => hgoes hs ?_, fun hs hcut => hgoes hs ?_, fun hs hcut hw => hgoes hs ?_,
    fun hs hcut hw => hgoes hs ?_, fun hs hw => hgoes hs ?_, fun hs hw => hgoes hs ?_, fun t hs hw => hgoes hs ?_,
    fun t hs hw => hgoes hs ?_, fun t hs hw => hgoes hs ?_, fun t hs hw => hgoes hs ?_, fun p hs => hgoes hs ?_,
    fun hs hu => hgoes hs ?_, fun p hs hu hp => ?_, fun line h hl => ?_, hacts.counting, hacts.config,
    x.positionMoved_queue a now l e, hacts.log, hacts.claims, hacts.faultClaims⟩
  -- FAST
  · exact (if_neg (Int.not_le.2 hfar)).trans (hstays hs)
  · exact Axis.fastMoved_slows a now x hslow (by simp)
      ((if_neg (Int.not_le.2 hcut)).trans (Axis.goesOn_nil ..).symm)
  · exact Axis.fastMoved_coasts a now x hslow hcut (hout hw)
  · exact Axis.fastMoved_settles a now x hslow hcut (hin hw)
  -- SLOW
  · exact (if_neg (Int.not_le.2 hcut)).trans (Axis.goesOn_nil ..).symm
  · exact (if_pos hcut).trans (Axis.cut_coasts a now x (hout hw))
  · exact (if_pos hcut).trans (Axis.cut_settles a now x (hin hw))
  · exact (if_pos (hin hw)).trans (Axis.enterSettle_eq ..)
  · exact (if_neg (by rw [hout hw]; decide)).trans (Axis.goesOn_nil ..).symm
  -- COAST
  · exact (if_pos (hin hw)).trans (Axis.enterSettle_eq ..)
  · exact Axis.coastMoved_on a x hs (hout hw)
  -- SETTLE
  · exact (if_pos (hin hw)).trans (hstays hs)
  · exact (if_neg (by rw [hout hw]; decide)).trans (Axis.enterCoast_eq ..)
  -- REVERSING
  · exact hstays hs
  -- TAKEUP
  · exact (Axis.takeupMoved_before a now x l hu).trans (hstays hs)
  · refine (Axis.positionMoved_eq hm hs a now l e).trans ((if_pos hu).trans ?_)
    rw [Axis.knownPosition_eq (x := x) (o := o.moved e) hp]
    rfl
  · exact ⟨congrArg Axis.lockout (x.turnOff_of_run now line h hl), x.turnOff_lines now⟩

end Sys2Proof.Machine
end

section
namespace Sys2Proof.Machine

/-! ### The judgement at rest -/

/-- A leg start that no limit window forbids leaves the order MOVING: in SETTLE, in its leg, or in REVERSING where the
lockout forbids the leg (R83 to R85). -/
theorem Axis.legStart_moves {x : Axis} {o : ActiveOrder} {p : Int} {limited : Dir → Bool} (a : AxisId) (now : Time)
    (h : let leg := planLeg x.config.kind o.snapshot o.corrections (x.config.aim o.snapshot p o.target)
      leg = .settle ∨ ∃ d high sub, leg = .run d high sub ∧ limited d = false) :
    let aim := x.config.aim o.snapshot p o.target
    let leg := planLeg x.config.kind o.snapshot o.corrections aim
    let y := (x.legStart a now limited p o).1
    ∃ q, y.motion = .moving q ∧ q.corrections = o.corrections ∧ q.dir = aim.dir ∧ q.dist = aim.dist ∧
      q.order = o.order ∧ q.target = o.target ∧ q.snapshot = o.snapshot ∧
      (leg = .settle → q.substate = .settle ⟨o.settle, 0⟩ ∧ y.lines = x.lines) ∧
      (∀ d high sub, leg = .run d high sub → x.permits d = true → q.substate = sub ∧ y.lines = .run d high) ∧
      (∀ d high sub, leg = .run d high sub → x.permits d = false →
        q.substate = .reversing d ∧ y.lines = x.lines) := by
  intro aim leg y
  rcases h with hleg | ⟨d, high, sub, hleg, hl⟩
  · have hno {d high sub} (h : leg = .run d high sub) : False := Leg.noConfusion (hleg.symm.trans h)
    rw [show y = _ from congrArg Prod.fst (Axis.legStart_settles hleg a now limited)]
    exact ⟨_, rfl, rfl, rfl, rfl, rfl, rfl, rfl, fun _ => ⟨rfl, rfl⟩, fun _ _ _ h => (hno h).elim,
      fun _ _ _ h => (hno h).elim⟩
  · have hno (h : leg = .settle) : False := Leg.noConfusion (hleg.symm.trans h)
    have hsame {e b new} (h : leg = .run e b new) : d = e ∧ high = b ∧ sub = new := Leg.run.inj (hleg.symm.trans h)
    cases hp : x.permits d with
    | false =>
      rw [show y = _ from congrArg Prod.fst (Axis.legStart_locked hleg hl hp a now)]
      refine ⟨_, rfl, rfl, rfl, rfl, rfl, rfl, rfl, fun h => (hno h).elim,
        fun _ _ _ h hp' => ?_, fun _ _ _ h _ => ?_⟩
      · obtain ⟨rfl, rfl, rfl⟩ := hsame h
        exact absurd (hp.symm.trans hp') (by decide)
      · obtain ⟨rfl, rfl, rfl⟩ := hsame h
        exact ⟨rfl, rfl⟩
    | true =>
      rw [show y = _ from congrArg Prod.fst (Axis.legStart_on hleg hl hp a now)]
      refine ⟨_, rfl, rfl, rfl, rfl, rfl, rfl, rfl, fun h => (hno h).elim,
        fun _ _ _ h _ => ?_, fun _ _ _ h hp' => ?_⟩
      · obtain ⟨rfl, rfl, rfl⟩ := hsame h
        exact ⟨rfl, rfl⟩
      · obtain ⟨rfl, rfl, rfl⟩ := hsame h
        exact absurd (hp.symm.trans hp') (by decide)

/-- An order with one correction more (R93). -/
def ActiveOrder.counted (o : ActiveOrder) : ActiveOrder := { o with corrections := o.corrections + 1 }

section
variable {x : Axis} {o : ActiveOrder} (a : AxisId) (now : Time) (limited : Dir → Bool)
  (hout : insideWindow o.snapshot o.dist = false)
include hout

/-- With no correction left the order fails by the side it stands on (R94, R95). -/
theorem Axis.judgeRest_fails (h : o.snapshot.corrections ≤ o.corrections) :
    x.judgeRest a now limited o =
      x.endOrder a now o (if (o.snapshot.window : Int) < o.dist then .short else .overshoot) := by
  unfold Axis.judgeRest
  rw [hout, if_neg Bool.false_ne_true, if_neg (Nat.not_lt.2 h)]

/-- With one left it is counted, and a leg start is taken (R93). -/
theorem Axis.judgeRest_corrects (h : o.corrections < o.snapshot.corrections) {p : Int} (hp : x.knownPosition o = p) :
    x.judgeRest a now limited o = x.legStart a now limited p o.counted := by
  unfold Axis.judgeRest
  rw [hout, if_neg Bool.false_ne_true, if_pos h, hp]
  rfl

end

/-- The rest timer's expiry is the judgement at rest of the axis that the clock has left. -/
theorem State.rest_expires {s : State} {a : AxisId} {t : Timer} {o : ActiveOrder} {late : Nat} {e : Taken}
    (ht : (s.axis a).motion.restTimer = some t) (hrun : s.mayRun (t.wait late) = true)
    {v : State} (hv : s.runTo t late = v) (hm : (v.axis a).motion = .moving o)
    (he : (v.axis a).judgeRest a v.timebase (v.monitor.limitAgainst a) o = e) :
    exec (.restTimerExpiry a late) s = .next ((v.setAxis a e.1).offers e.2) := by
  subst hv
  show Host.Outcome.next (s.expire (s.axis a).motion.restTimer late _) = _
  rw [ht, State.expire_some hrun]
  exact congrArg Host.Outcome.next (State.take_eq ((Axis.onOrder_moving hm _).trans he))

/-- Settles O48: the judgement at rest fails the order or takes a leg start, whose outcomes are those of
`Axis.legStart_limited` and `Axis.legStart_moves`. -/
theorem restIsJudged : Obligations.RestIsJudged := by
  intro s a late t o ht hrun v x w hm hfar
  have hout : insideWindow o.snapshot o.dist = false := insideWindow_false_iff.2 (by omega)
  have hcorrects {p : Int} (h : o.corrections < o.snapshot.corrections) (hp : x.knownPosition o = p) :=
    State.rest_expires (v := v) ht hrun rfl hm
      (Axis.judgeRest_corrects a v.timebase (v.monitor.limitAgainst a) hout h hp)
  refine ⟨fun h => ?_, fun p h hp => ?_, fun p h hp => ?_⟩
  · exact State.rest_expires (v := v) ht hrun rfl hm (Axis.judgeRest_fails a _ _ hout h)
  · intro aim leg
    have hexec := hcorrects h (Axis.knownPosition_eq (Or.inl hp))
    refine ⟨fun d high sub hleg hl => ?_, fun hleg => ?_⟩
    · rw [hexec, Axis.legStart_limited (x := x) (o := o.counted) hleg hl]
      rfl
    · have hacts := x.acts_legStart a v.timebase (v.monitor.limitAgainst a) p o.counted (by rw [Axis.runs, hm]; rfl)
      have hqueue := x.legStart_queue a v.timebase (v.monitor.limitAgainst a) p o.counted
      obtain ⟨q, hmotion, hcount, hdir, hdist, horder, htarget, hsnap, hsettle, hon, hlocked⟩ :=
        Axis.legStart_moves (x := x) (o := o.counted) a v.timebase hleg
      refine ⟨_, q, hexec, ?_⟩
      rw [State.offers_axis, State.setAxis_axis, if_pos rfl]
      refine ⟨hmotion, hcount, hdir, hdist, horder, htarget, hsnap, hsettle, hon, hlocked, hacts.counting, hqueue,
        fun b hb => ?_, ?_, ?_, ?_⟩
      · rw [State.offers_axis, State.setAxis_axis, if_neg hb]
      all_goals simp
  · exact hcorrects h (Axis.knownPosition_eq hp)

end Sys2Proof.Machine
end

section
namespace Sys2Proof.Machine

/-! ### What the lockout permits -/

/-- The lockout permits a RUN line unless a RUN-off of the other line is in force (R111). -/
theorem Axis.permits_iff {x : Axis} {d : Dir} :
    x.permits d = true ↔ ∀ r, x.lockout = some r → r.timer = none ∨ r.line = d := by
  unfold Axis.permits
  cases x.lockout with
  | none => simp
  | some r => simp

/-- Settles O50: `Axis.turnOff` with the lines off and on, and `Axis.permits_iff` for each lockout record. -/
theorem linesTurnOffIntoTheLockout : Obligations.LinesTurnOffIntoTheLockout := by
  intro x now
  refine ⟨x.turnOff_of_off now, x.turnOff_of_run now, fun hnone d => ?_, fun r hr ht d => ?_,
    fun r t hr ht => ⟨?_, ?_⟩⟩
  · exact Axis.permits_iff.2 fun r hr => absurd (hnone.symm.trans hr) (Option.some_ne_none r).symm
  · refine Axis.permits_iff.2 fun q hq => Or.inl ?_
    rw [← Option.some.inj (hr.symm.trans hq), ht]
  · refine Axis.permits_iff.2 fun q hq => Or.inr ?_
    rw [← Option.some.inj (hr.symm.trans hq)]
  · refine Bool.eq_false_iff.2 fun hp => ?_
    rcases Axis.permits_iff.1 hp r hr with hended | hline
    · exact Option.some_ne_none t (ht.symm.trans hended)
    · exact r.line.opposite_ne hline.symm

end Sys2Proof.Machine
end

section
namespace Sys2Proof.Machine

/-! ### The end of a frame -/

/-- The end of the frame on TXD is taken where the clock has run on to it (R181). -/
theorem State.frame_expires {s : State} {f : TxFrame} {late : Nat} (hf : s.link.transmitter = some f)
    (hrun : s.mayRun (f.timer.wait late) = true) (st : Straps) :
    exec (.frameEnd ⟨late, st⟩) s = .next (State.frameEnds st (s.runTo f.timer late)) := by
  show Host.Outcome.next (s.expire (s.link.transmitter.map TxFrame.timer) late _) = _
  rw [hf, Option.map_some, State.expire_some hrun]

/-- With no RESTART reply on TXD the end of a frame frees the transmitter (R181). -/
theorem State.frameEnds_frees {s : State} (h : s.link.restart ≠ .replySending) (st : Straps) :
    s.frameEnds st = s.setLink { s.link with transmitter := none } := by
  unfold State.frameEnds
  cases hphase : s.link.restart with
  | replySending => exact absurd hphase h
  | none | replyWaiting => rfl

/-- The end of the RESTART reply resets the part (R191). -/
theorem State.frameEnds_resets {s : State} (h : s.link.restart = .replySending) (st : Straps) :
    s.frameEnds st = s.resetTo .request st false := by
  unfold State.frameEnds
  rw [h]

theorem State.runTo_pins (s : State) (k : Timer) (late : Nat) (a : AxisId) :
    ((s.runTo k late).axis a).pins = (s.axis a).pins := by
  rw [State.runTo_axis]
  rfl

theorem State.runTo_lines (s : State) (k : Timer) (late : Nat) (a : AxisId) :
    ((s.runTo k late).axis a).lines = (s.axis a).lines := by
  rw [State.runTo_axis]
  rfl

/-- A reset at an expiry leaves what one before it would: time changes neither the pins nor the waiting commands. -/
theorem ResetOf.of_runTo {cause : Cause} {st : Straps} {held : Bool} {s t : State} {k : Timer} {late : Nat}
    (h : ResetOf cause st held (s.runTo k late) t) : ResetOf cause st held s t :=
  { h with
    axes := fun a => by
      rw [← s.runTo_pins k late a]
      exact h.axes a }

/-- Settles O22: the end of a frame by the RESTART phase; the run to it leaves lines and RESETN as they are. -/
theorem frameEndFreesOrRestarts : Obligations.FrameEndFreesOrRestarts := by
  intro s late st f hf hrun
  have hexec := State.frame_expires hf hrun st
  refine ⟨fun hphase => ?_, fun hphase =>
    ⟨(s.runTo f.timer late).resetTo .request st false, ?_, (State.resetTo_resetOf ..).of_runTo, fun a => ?_⟩⟩
  · rw [hexec, State.frameEnds_frees (s := s.runTo f.timer late) hphase]
    rfl
  · rw [hexec, State.frameEnds_resets (s := s.runTo f.timer late) hphase]
  · have hlines := s.runTo_lines f.timer late a
    rw [State.resetTo_lockout]
    refine ⟨fun d h hl => Axis.resetLockout_run (hlines.trans hl) _, fun hl hlow => ?_⟩
    rw [Axis.resetLockout_off (hlines.trans hl), show (s.runTo f.timer late).link.resetnLow = false from hlow]
    rfl

end Sys2Proof.Machine
end

section
namespace Sys2Proof.Machine

/-! ### How a jog asks for its line -/

/-- The lockout permits the line of a jog: it turns on (R115). -/
theorem Axis.askJog_on {x : Axis} {j : Jog} (h : x.permits j.dir = true) :
    x.askJog j =
      { x with
        lines := .run j.dir (decide (j.speed = .high)), stall := x.newStall
        motion := .jogging { j with pending := false } } :=
  if_pos h

/-- The lockout forbids it: the jog waits (R115). -/
theorem Axis.askJog_waits {x : Axis} {j : Jog} (h : x.permits j.dir = false) :
    x.askJog j = { x with motion := .jogging { j with pending := true } } :=
  if_neg (ne_true_of_eq_false h)

/-! ### An accepted JOG with DIRECTION NONE -/

/-- An axis that stands still is left as it is (R115). -/
theorem Axis.jogNone_still {x : Axis} (hm : x.motion = .idle ∨ x.motion = .held ∨ x.motion = .waiting) (a : AxisId)
    (now : Time) : x.jogNone a now = (x, []) := by
  unfold Axis.jogNone
  rcases hm with hm | hm | hm <;> rw [hm]

/-- A jog ends ENDED: HELD with its lines off (R116, R119). -/
theorem Axis.jogNone_jogging {x : Axis} {j : Jog} (hm : x.motion = .jogging j) (a : AxisId) (now : Time) :
    x.jogNone a now =
      ({ x.turnOff now with stall := none, motion := .held, holdPending := false }, [.jogEnded a .ended]) := by
  unfold Axis.jogNone
  rw [hm]
  rfl

/-! ### An accepted JOG with a direction -/

section
variable {x : Axis} {j : Jog} {d : Dir} (now : Time) (sp : Speed) (n : Nat)

/-- A jog starts on an axis that stands still (R115). -/
theorem Axis.jog_starts (hm : x.motion = .idle ∨ x.motion = .held ∨ x.motion = .waiting) :
    x.jog now d sp n = x.askJog ⟨d, sp, ⟨n, 0⟩, true⟩ := by
  unfold Axis.jog
  rcases hm with hm | hm | hm <;> rw [hm] <;> rfl

theorem Axis.jog_jogging (hm : x.motion = .jogging j) : x.jog now d sp n = x.changeJog now j d sp n := by
  unfold Axis.jog
  rw [hm]

/-- A JOG in the direction of a jog that waits on the lockout: it waits on (R116). -/
theorem Axis.jog_waitsOn (hm : x.motion = .jogging j) (hd : d = j.dir) (hp : j.pending = true) :
    x.jog now d sp n = { x with motion := .jogging ⟨d, sp, ⟨n, 0⟩, true⟩ } := by
  rw [Axis.jog_jogging now sp n hm]
  unfold Axis.changeJog
  rw [if_pos hd, if_pos hp, hp]
  rfl

/-- A JOG in the direction of a jog whose line is on changes the speed (R116). -/
theorem Axis.jog_changesSpeed (hm : x.motion = .jogging j) (hd : d = j.dir) (hp : j.pending = false) {e : Dir}
    {h : Bool} (hl : x.lines = .run e h) :
    x.jog now d sp n =
      { x with lines := .run e (decide (sp = .high)), motion := .jogging ⟨d, sp, ⟨n, 0⟩, false⟩ } := by
  rw [Axis.jog_jogging now sp n hm]
  unfold Axis.changeJog
  rw [if_pos hd, if_neg (ne_true_of_eq_false hp), hp, Axis.setHigh_of_run _ _ _ _ hl]
  rfl

/-- A JOG in another direction than a jog that waits on the lockout asks for its line (R116). -/
theorem Axis.jog_asksAnew (hm : x.motion = .jogging j) (hd : d ≠ j.dir) (hp : j.pending = true) :
    x.jog now d sp n = x.askJog ⟨d, sp, ⟨n, 0⟩, true⟩ := by
  rw [Axis.jog_jogging now sp n hm]
  unfold Axis.changeJog
  rw [if_neg hd, if_pos hp, hp]
  rfl

/-- A JOG in another direction than a jog whose line is on turns the line off, and waits on the RUN-off (R111, R116). -/
theorem Axis.jog_turnsOff (hm : x.motion = .jogging j) (hd : d ≠ j.dir) (hp : j.pending = false) {e : Dir} {h : Bool}
    (hl : x.lines = .run e h) (he : e = j.dir) :
    x.jog now d sp n =
      { x with
        lines := .off
        stall := none
        lockout := some ⟨e, now, some ⟨x.config.reversalGap, 0⟩, 0⟩
        motion := .jogging ⟨d, sp, ⟨n, 0⟩, true⟩ } := by
  have hasks : x.jog now d sp n = (x.turnOff now).askJog ⟨d, sp, ⟨n, 0⟩, false⟩ := by
    rw [Axis.jog_jogging now sp n hm]
    unfold Axis.changeJog
    rw [if_neg hd, if_neg (ne_true_of_eq_false hp), hp]
    rfl
  have hforbids : (x.turnOff now).permits d = false := by
    rw [Axis.turnOff_of_run _ _ _ _ hl]
    refine Bool.eq_false_iff.2 fun hpermits => ?_
    rcases Axis.permits_iff.1 hpermits _ rfl with hended | hline
    · exact absurd hended (Option.some_ne_none _)
    · exact hd (hline.symm.trans he)
  rw [hasks, Axis.askJog_waits hforbids, Axis.turnOff_of_run _ _ _ _ hl]
  rfl

end

/-! ### The fields of a JOG -/

theorem jogDirection_none {fs : List Field} (h : fieldInt fs .direction = 0) : jogDirection fs = none := if_pos h

theorem jogDirection_some {fs : List Field} {d : Dir} (h : fieldInt fs .direction = d.code) :
    jogDirection fs = some d := by
  unfold jogDirection
  rw [h]
  cases d <;> rfl

/-- HIGH is on with every SPEED but CREEP. -/
theorem Speed.ofCode_high (v : Int) : decide (Speed.ofCode v = .high) = (v != 0) := by
  unfold Speed.ofCode
  by_cases h : v = 0 <;> simp [h]

/-! ### The checks of JOG -/

/-- The motion states that checks 2 and 3 of R114 let pass. -/
def Motion.AcceptsJog (m : Motion) : Prop := m.isFaulted = false ∧ m.refusesJog = false

theorem Motion.acceptsJog_iff {m : Motion} :
    m.AcceptsJog ↔ m = .idle ∨ m = .held ∨ m = .waiting ∨ ∃ j, m = .jogging j := by
  unfold Motion.AcceptsJog
  cases m <;> simp [Motion.isFaulted, Motion.refusesJog]

theorem Motion.acceptsJog_still {m : Motion} (h : m = .idle ∨ m = .held ∨ m = .waiting) : m.AcceptsJog :=
  Motion.acceptsJog_iff.2 (h.imp_right (Or.imp_right Or.inl))

theorem Motion.acceptsJog_jogging {m : Motion} {j : Jog} (h : m = .jogging j) : m.AcceptsJog :=
  Motion.acceptsJog_iff.2 (Or.inr (Or.inr (Or.inr ⟨j, h⟩)))

section
variable {s : State} {fs : List Field}

theorem jogRule_watched (hd : (s.axis (fieldAxis fs)).config.role = .watched) :
    jogRule fs s = (.bare .wrongState, s) :=
  if_pos (Axis.not_driven_of_watched hd)

variable (hd : (s.axis (fieldAxis fs)).config.role = .driven)
include hd

/-- A DRIVEN axis passes check 1. -/
theorem driven_passesJog : ¬ (s.axis (fieldAxis fs)).driven = false := by
  rw [Axis.driven_iff.2 hd]
  decide

theorem jogRule_faulted (hm : (s.axis (fieldAxis fs)).motion = .faulted) : jogRule fs s = (.bare .faulted, s) :=
  (if_neg (driven_passesJog hd)).trans (if_pos (Motion.isFaulted_iff.2 hm))

theorem jogRule_wrongState (hf : (s.axis (fieldAxis fs)).motion.isFaulted = false)
    (hm : (s.axis (fieldAxis fs)).motion.refusesJog = true) : jogRule fs s = (.bare .wrongState, s) :=
  (if_neg (driven_passesJog hd)).trans ((if_neg (ne_true_of_eq_false hf)).trans (if_pos hm))

variable (hm : (s.axis (fieldAxis fs)).motion.AcceptsJog)
include hm

theorem jogRule_limited (hl : s.monitor.limitsJog (fieldAxis fs) (jogDirection fs) = true) :
    jogRule fs s = (.bare .limited, s) := by
  obtain ⟨hfaulted, hrefuses⟩ := hm
  exact (if_neg (driven_passesJog hd)).trans ((if_neg (ne_true_of_eq_false hfaulted)).trans
    ((if_neg (ne_true_of_eq_false hrefuses)).trans (if_pos hl)))

/-- A JOG that passes its checks acts, and answers with the motion state and the lines it leaves (R115, R116). -/
theorem jogRule_accepted (hl : s.monitor.limitsJog (fieldAxis fs) (jogDirection fs) = false) {t : State}
    (ht : s.jog (fieldAxis fs) (jogDirection fs) (Speed.ofCode (fieldInt fs .speed))
      ((fieldValue fs .deadman).elim 500 Int.toNat) = t) :
    jogRule fs s =
      (.ok [(.motion, (t.axis (fieldAxis fs)).motion.code), (.lines, (t.axis (fieldAxis fs)).lines.code)], t) := by
  obtain ⟨hfaulted, hrefuses⟩ := hm
  subst ht
  exact (if_neg (driven_passesJog hd)).trans ((if_neg (ne_true_of_eq_false hfaulted)).trans
    ((if_neg (ne_true_of_eq_false hrefuses)).trans (if_neg (ne_true_of_eq_false hl))))

end

/-! ### JOG -/

section
variable {s : State} {r : Request} {fs : List Field} (h : Serves s .jog r fs)
  (hd : (s.axis (fieldAxis fs)).config.role = .driven)
  (hm : (s.axis (fieldAxis fs)).motion.AcceptsJog)
include h hd hm

/-- JOG with DIRECTION NONE: what it does to the axis, and the answer that reports it. -/
theorem Serves.jog_none (hc : fieldInt fs .direction = 0) {e : Taken}
    (he : (s.axis (fieldAxis fs)).jogNone (fieldAxis fs) s.timebase = e) :
    exec .jog s =
      .next (((s.setAxis (fieldAxis fs) e.1).offers e.2).answered r
        (.ok [(.motion, e.1.motion.code), (.lines, e.1.lines.code)])) := by
  have hdir := jogDirection_none hc
  refine h.takes (own := jogRule) ?_ he
  refine (jogRule_accepted (s := s.setLink s.link.popIntake) hd hm (by rw [hdir]; rfl) rfl).trans ?_
  rw [hdir]
  unfold State.jog
  dsimp only
  rw [State.take_axis, if_pos rfl, State.setLink_axis, State.setLink_timebase, he]

/-- JOG with a direction that no limit window is against: what it does to the axis, and the answer that reports it. -/
theorem Serves.jog_runs {d : Dir} (hc : fieldInt fs .direction = d.code)
    (hl : s.monitor.limitAgainst (fieldAxis fs) d = false) {y : Axis}
    (hy : (s.axis (fieldAxis fs)).jog s.timebase d (Speed.ofCode (fieldInt fs .speed))
      ((fieldValue fs .deadman).elim 500 Int.toNat) = y) :
    exec .jog s =
      .next ((s.setAxis (fieldAxis fs) y).answered r (.ok [(.motion, y.motion.code), (.lines, y.lines.code)])) := by
  have hdir := jogDirection_some hc
  refine h.modifies (own := jogRule) ?_ hy
  refine (jogRule_accepted (s := s.setLink s.link.popIntake) hd hm (by rw [hdir]; exact hl) rfl).trans ?_
  rw [hdir]
  unfold State.jog
  dsimp only
  rw [State.modifyAxis_axis, if_pos rfl, State.setLink_axis, State.setLink_timebase, hy]

end

/-- The deadman's expiry ends the jog EXPIRED: lines off, HELD (R118, R119). -/
theorem State.deadman_expires {s : State} {a : AxisId} {j : Jog} {late : Nat} (hm : (s.axis a).motion = .jogging j)
    (hrun : s.mayRun (j.deadman.wait late) = true) :
    let v := s.runTo j.deadman late
    exec (.deadmanExpiry a late) s =
      .next ((v.setAxis a { (v.axis a).turnOff v.timebase with
        stall := none, motion := .held, holdPending := false }).offers [.jogEnded a .expired]) := by
  intro v
  show Host.Outcome.next (s.expire (s.axis a).motion.deadman late _) = _
  rw [hm, show (Motion.jogging j).deadman = some j.deadman from rfl, State.expire_some hrun]
  rfl

/-- Settles O51: the checks by `jogRule`, an accepted JOG by what `Axis.jog` does in each motion state, and the deadman's
expiry. -/
theorem jogsRunAndEnd : Obligations.JogsRunAndEnd := by
  refine ⟨?_, fun s a j late hm hrun => State.deadman_expires hm hrun⟩
  rintro s r fs a h rfl x code speed high dead stall refused gives
  refine ⟨fun hd => h.reports (own := jogRule) (jogRule_watched hd), fun hd => ⟨fun hm => ?_, fun hm => ?_,
    fun hc hm => ?_, fun j hc hm => ?_, fun d hc => ⟨fun hm hl => ?_, fun hl => ?_⟩⟩⟩
  · exact h.reports (own := jogRule) (jogRule_faulted hd hm)
  · have hchecks : x.motion.isFaulted = false ∧ x.motion.refusesJog = true := by
      rcases hm with ⟨_, hm⟩ | ⟨_, hm⟩ <;> rw [hm] <;> exact ⟨rfl, rfl⟩
    exact h.reports (own := jogRule) (jogRule_wrongState hd hchecks.1 hchecks.2)
  · exact h.jog_none hd (Motion.acceptsJog_still hm) hc (Axis.jogNone_still hm _ _)
  · exact h.jog_none hd (Motion.acceptsJog_jogging hm) hc (Axis.jogNone_jogging hm _ _)
  · refine h.reports (own := jogRule) (jogRule_limited hd (Motion.acceptsJog_iff.2 hm) ?_)
    rw [jogDirection_some hc]
    exact hl
  · have hhigh : decide (speed = .high) = high := Speed.ofCode_high _
    have hstall : x.newStall = stall := by simp [stall, Axis.newStall_eq, hd]
    have hruns {y : Axis} (hm : x.motion.AcceptsJog) (hy : x.jog s.timebase d speed dead.duration = y) :
        gives y [] := h.jog_runs hd hm hc hl hy
    have hturns {y : Axis} (hp : x.permits d = true) (hy : y = x.askJog ⟨d, speed, dead, true⟩) :
        y = { x with lines := .run d high, stall := stall, motion := .jogging ⟨d, speed, dead, false⟩ } := by
      rw [hy, Axis.askJog_on hp, hhigh, hstall]
    have hwaits {y : Axis} (hp : x.permits d = false) (hy : y = x.askJog ⟨d, speed, dead, true⟩) :
        y = { x with motion := .jogging ⟨d, speed, dead, true⟩ } := hy.trans (Axis.askJog_waits hp)
    refine ⟨fun hm hp => ?_, fun hm hp => ?_, fun j hm hj hpend => ?_, fun j e b hm hj hpend hlines => ?_,
      fun j e b hm hj hpend hlines he => ?_, fun j hm hj hpend hp => ?_, fun j hm hj hpend hp => ?_⟩
    · exact hruns (Motion.acceptsJog_still hm) (hturns hp (Axis.jog_starts _ _ _ hm))
    · exact hruns (Motion.acceptsJog_still hm) (hwaits hp (Axis.jog_starts _ _ _ hm))
    · exact hruns (Motion.acceptsJog_jogging hm) (Axis.jog_waitsOn _ _ _ hm hj hpend)
    · refine hruns (Motion.acceptsJog_jogging hm) ((Axis.jog_changesSpeed _ _ _ hm hj hpend hlines).trans ?_)
      rw [hhigh]
    · exact hruns (Motion.acceptsJog_jogging hm) (Axis.jog_turnsOff _ _ _ hm hj hpend hlines he)
    · exact hruns (Motion.acceptsJog_jogging hm) (hturns hp (Axis.jog_asksAnew _ _ _ hm hj hpend))
    · exact hruns (Motion.acceptsJog_jogging hm) (hwaits hp (Axis.jog_asksAnew _ _ _ hm hj hpend))

end Sys2Proof.Machine
end

section
namespace Sys2Proof.Machine

/-! ### What the Window Monitor sees of the axes -/

/-- Two states of an axis in which every window of it has the same occupancy (R126). -/
def Axis.SameView (x y : Axis) : Prop := ∀ v : Window, v.test y = v.test x

theorem Axis.SameView.refl (x : Axis) : x.SameView x := fun _ => rfl

theorem Axis.SameView.trans {x y z : Axis} (h : x.SameView y) (k : y.SameView z) : x.SameView z :=
  fun v => (k v).trans (h v)

/-- A window is tested by the position and the KIND of its axis. -/
theorem Axis.sameView_of_position {x y : Axis} (hp : y.position = x.position) (hk : y.config.kind = x.config.kind) :
    x.SameView y := by
  intro v
  unfold Window.test
  rw [hp, hk]

/-- The fault record is no part of the position. -/
theorem Axis.sameView_of_counting {x y : Axis} (hc : y.config = x.config)
    (hn : y.counting = { x.counting with fault := y.counting.fault }) : x.SameView y :=
  Axis.sameView_of_position (Axis.position_congr hc hn) (by rw [hc])

theorem Axis.Acts.sameView {x y : Axis} (h : x.Acts y) : x.SameView y :=
  Axis.sameView_of_counting h.config (by rw [h.counting])

theorem Axis.SameButClaims.sameView {x y : Axis} (h : x.SameButClaims y) : x.SameView y := by
  obtain ⟨hconfig, hcounting, -⟩ := h.controlled
  exact Axis.sameView_of_counting hconfig (by rw [hcounting])

/-- Windows of an UNREFERENCED axis, and no others, are UNKNOWN (R126). -/
theorem Window.test_unknown_iff {x : Axis} (v : Window) :
    v.test x = .unknown ↔ x.counting.reference = .unreferenced := by
  refine ⟨fun h => ?_, fun h => Window.test_unreferenced h v⟩
  cases hr : x.counting.reference with
  | unreferenced => rfl
  | referenced =>
    unfold Window.test at h
    rw [Axis.position_referenced hr] at h
    dsimp only at h
    split at h <;> cases h

theorem Axis.sameView_of_unreferenced {x y : Axis} (hx : x.counting.reference = .unreferenced)
    (hy : y.counting.reference = .unreferenced) : x.SameView y := fun v => by
  rw [Window.test_unreferenced hx, Window.test_unreferenced hy]

/-- The Window Monitor sees whether an axis is REFERENCED. -/
theorem Axis.SameView.unreferenced {x y : Axis} (h : x.SameView y) (hy : y.counting.reference = .unreferenced) :
    x.counting.reference = .unreferenced := by
  have htest := h ⟨.axis0, 0, 0, 0, .none, .none, .unknown⟩
  exact (Window.test_unknown_iff _).1 (htest.symm.trans ((Window.test_unknown_iff _).2 hy))

/-- Two states in which every window has the same occupancy, with the same windows, guards and outputs. -/
structure State.SameView (s t : State) : Prop where
  monitor : t.monitor = s.monitor
  axes : ∀ a, (s.axis a).SameView (t.axis a)

theorem State.SameView.refl (s : State) : s.SameView s := ⟨rfl, fun _ => .refl _⟩

theorem State.SameView.trans {s t u : State} (h : s.SameView t) (k : t.SameView u) : s.SameView u :=
  ⟨k.monitor.trans h.monitor, fun a => (h.axes a).trans (k.axes a)⟩

/-- A change outside the axes and the Window Monitor. -/
theorem State.SameView.of_axes {s t : State} (hm : t.monitor = s.monitor) (ha : t.axes = s.axes) : s.SameView t :=
  ⟨hm, fun a => by unfold State.axis; rw [ha]; exact .refl _⟩

theorem State.sameView_setAxis {s : State} {a : AxisId} {x : Axis} (h : (s.axis a).SameView x) :
    s.SameView (s.setAxis a x) := by
  refine ⟨rfl, fun b => ?_⟩
  rw [State.setAxis_axis]
  split
  · subst b; exact h
  · exact .refl _

theorem State.sameView_take {s : State} {a : AxisId} {f : Axis → Taken} (h : (s.axis a).SameView (f (s.axis a)).1) :
    s.SameView (s.take a f) :=
  ⟨State.take_monitor s a f, fun b => by
    rw [State.take_axis]
    split
    · subst b; exact h
    · exact .refl _⟩

theorem State.sameView_modifyAxis {s : State} {a : AxisId} {f : Axis → Axis} (h : (s.axis a).SameView (f (s.axis a))) :
    s.SameView (s.modifyAxis a f) := State.sameView_setAxis h

theorem State.sameView_advance (s : State) (n : Nat) : s.SameView (s.advance n) := by
  refine ⟨rfl, fun a => ?_⟩
  rw [State.advance_axis]
  exact Axis.sameView_of_position rfl rfl

/-! ### Windows and guards in the midst of an event -/

/-- Windows and guards as `State.WindowsOk` has them, with the occupancy of R126 known of the windows of some axes. -/
structure State.WindowsOkOn (on : AxisId → Prop) (s : State) : Prop where
  tested : ∀ e ∈ s.monitor.windows, on e.2.axis → e.2.occupancy = e.2.test (s.axis e.2.axis)
  members : ∀ e ∈ s.monitor.guards, ∀ n ∈ e.2.members, (Table.find n s.monitor.windows).isSome = true
  sound : s.monitor.Sound
  hosts : s.monitor.hostValues &&& s.monitor.owned = 0

theorem State.WindowsOk.on {s : State} (h : s.WindowsOk) (on : AxisId → Prop) : s.WindowsOkOn on :=
  ⟨fun e he _ => h.tested e he, h.members, h.tripped, h.hosts⟩

theorem State.WindowsOkOn.all {s : State} {on : AxisId → Prop} (h : s.WindowsOkOn on) (ho : ∀ a, on a) : s.WindowsOk :=
  ⟨fun e he => h.tested e he (ho _), h.members, h.sound, h.hosts⟩

theorem State.WindowsOkOn.mono {s : State} {on on' : AxisId → Prop} (h : s.WindowsOkOn on) (ho : ∀ a, on' a → on a) :
    s.WindowsOkOn on' :=
  ⟨fun e he ha => h.tested e he (ho _ ha), h.members, h.sound, h.hosts⟩

/-- What the Window Monitor sees on the axes that count decides. -/
theorem State.WindowsOkOn.seen {s t : State} {on : AxisId → Prop} (h : s.WindowsOkOn on) (hm : t.monitor = s.monitor)
    (ha : ∀ a, on a → (s.axis a).SameView (t.axis a)) : t.WindowsOkOn on := by
  refine ⟨fun e he ho => ?_, ?_, ?_, ?_⟩
  · rw [hm] at he
    exact (h.tested e he ho).trans (ha _ ho e.2).symm
  · rw [hm]; exact h.members
  · rw [hm]; exact h.sound
  · rw [hm]; exact h.hosts

theorem State.WindowsOkOn.sameView {s t : State} {on : AxisId → Prop} (h : s.WindowsOkOn on) (k : s.SameView t) :
    t.WindowsOkOn on := h.seen k.monitor (fun a _ => k.axes a)

theorem State.WindowsOk.sameView {s t : State} (h : s.WindowsOk) (k : s.SameView t) : t.WindowsOk :=
  ((h.on fun _ => True).sameView k).all fun _ => trivial

/-- A guard that an evaluation leaves TRIPPED has no VACANT member (R132). -/
theorem Guard.next_sound {g : Guard} {ws : Table Window} (h : g.next ws = .tripped) :
    ∀ n ∈ g.members, occupancyAt ws n ≠ .vacant := by
  intro n hn hv
  cases hg : g.state with
  | clear =>
    rw [Guard.next_clear hg] at h
    split at h
    · rename_i hall
      rw [hall n hn] at hv
      cases hv
    · cases h
  | tripped =>
    rw [Guard.next_tripped hg, if_pos ⟨n, hn, hv⟩] at h
    cases h

/-- Guards behind an evaluation of the picked ones: no TRIPPED one has a VACANT member, if the others have none. -/
theorem WindowMonitor.sound_evaluate {ws : Table Window} {pick : Guard → Bool} {m : WindowMonitor}
    (h : ∀ e ∈ m.guards, pick e.2 = false → e.2.state = .tripped → ∀ n ∈ e.2.members, occupancyAt ws n ≠ .vacant) :
    WindowMonitor.Sound { m with windows := ws, guards := evaluate ws pick m.guards } := by
  intro e he hst
  rw [evaluate_eq] at he
  obtain ⟨d, hd, rfl⟩ := List.mem_map.1 he
  have hst : d.2.after ws pick = .tripped := hst
  unfold Guard.after at hst
  split at hst
  · exact Guard.next_sound (g := d.2) hst
  · rename_i hp
    exact h d hd (by simpa using hp) hst

/-- What the Window Monitor keeps when it takes an event with new window slots. -/
theorem State.windowsOkOn_monitorTakes {s : State} {on : AxisId → Prop} {p : Option Int} {ws : Table Window}
    {pick : Guard → Bool} {limits : Nat → Window → Bool}
    (hmembers : ∀ e ∈ s.monitor.guards, ∀ n ∈ e.2.members, (Table.find n s.monitor.windows).isSome = true)
    (hsound : s.monitor.Sound)
    (htested : ∀ e ∈ ws, on e.2.axis → e.2.occupancy = e.2.test (s.axis e.2.axis))
    (hheld : ∀ n, (Table.find n s.monitor.windows).isSome = true → (Table.find n ws).isSome = true)
    (hkept : ∀ g : Guard, pick g = false → ∀ n ∈ g.members, occupancyAt ws n = occupancyAt s.monitor.windows n)
    (hhosts : s.monitor.hostValues &&& { s.monitor with windows := ws }.owned = 0) :
    (s.monitorTakes p ws pick limits).WindowsOkOn on := by
  constructor
  case tested =>
    intro e he ho
    rw [State.monitorTakes_monitor] at he
    rw [htested e he ho]
    exact ((s.monitorTakes_same p ws pick limits e.2.axis).sameView e.2).symm
  case members =>
    intro e he n hn
    rw [State.monitorTakes_monitor, evaluate_eq] at he
    obtain ⟨d, hd, rfl⟩ := List.mem_map.1 he
    rw [State.monitorTakes_monitor]
    exact hheld n (hmembers d hd n hn)
  case sound =>
    rw [State.monitorTakes_monitor]
    refine WindowMonitor.sound_evaluate fun e he hp hst n hn => ?_
    rw [hkept e.2 hp n hn]
    exact hsound e he hst n hn
  case hosts =>
    rw [State.monitorTakes_monitor]
    exact hhosts

/-! ### A position change, a gain and a loss of reference -/

theorem find_retest_isSome (a : AxisId) (x : Axis) (ws : Table Window) (n : Nat) :
    (Table.find n (retest a x ws)).isSome = (Table.find n ws).isSome := by
  have hfind := Table.find_map (fun _ v => if v.axis = a then { v with occupancy := v.test x } else v) n ws
  rw [retest_eq, hfind, Option.isSome_map]

/-- The test of windows changes no OUTPUT. -/
theorem owned_retest (a : AxisId) (x : Axis) (m : WindowMonitor) :
    ({ m with windows := retest a x m.windows } : WindowMonitor).owned = m.owned := by
  unfold WindowMonitor.owned WindowMonitor.outputsOf
  dsimp only
  rw [retest_eq, List.foldl_map]
  congr 1
  funext acc e
  by_cases ha : e.2.axis = a <;> simp [ha]

/-- The test of the windows of an axis makes them as they should be, and leaves the others so. -/
theorem State.WindowsOkOn.windowsOf {s : State} {on : AxisId → Prop} (h : s.WindowsOkOn on) (a : AxisId) :
    (s.windowsOf a).WindowsOkOn (fun b => b = a ∨ on b) := by
  refine State.windowsOkOn_monitorTakes h.members h.sound ?_ ?_ ?_ ?_
  · intro e he ho
    rw [retest_eq] at he
    obtain ⟨d, hd, rfl⟩ := List.mem_map.1 he
    by_cases ha : d.2.axis = a
    · simp only [ha, if_true]
      rfl
    · rw [if_neg ha] at ho ⊢
      exact h.tested d hd (ho.resolve_left ha)
  · intro n hn
    rwa [find_retest_isSome]
  · intro g hg n hn
    have := List.any_eq_false.1 hg n hn
    simpa using (not_not.1 fun hne => this (decide_eq_true hne)).symm
  · rw [owned_retest]
    exact h.hosts

theorem State.WindowsOk.windowsOf {s : State} (h : s.WindowsOk) (a : AxisId) : (s.windowsOf a).WindowsOk :=
  ((h.on fun _ => True).windowsOf a).all fun _ => .inr trivial

/-- Windows and guards while the position of an axis has changed and the Window Monitor has not taken the change: the
windows of that axis are to be tested again, unless it is UNREFERENCED. -/
def State.WindowsOkBut (a : AxisId) (s : State) : Prop :=
  s.WindowsOkOn (fun b => b = a → (s.axis a).counting.reference = .unreferenced)

theorem State.WindowsOk.but {s : State} (h : s.WindowsOk) (a : AxisId) : s.WindowsOkBut a := h.on _

theorem State.WindowsOkBut.others {s : State} {a : AxisId} (h : s.WindowsOkBut a) : s.WindowsOkOn (· ≠ a) :=
  h.mono fun _ hne he => absurd he hne

/-- An axis changes, and it does not cease to be REFERENCED by that. -/
theorem State.WindowsOk.setAxis {s : State} (h : s.WindowsOk) {a : AxisId} {x : Axis}
    (hr : x.counting.reference = .unreferenced → (s.axis a).counting.reference = .unreferenced) :
    (s.setAxis a x).WindowsOkBut a := by
  refine (h.on _).seen rfl fun b hb => ?_
  rw [State.setAxis_axis, if_pos rfl] at hb
  rw [State.setAxis_axis]
  split
  · rename_i hba
    subst hba
    exact Axis.sameView_of_unreferenced (hr (hb rfl)) (hb rfl)
  · exact .refl _

theorem State.WindowsOkBut.sameView {s t : State} {a : AxisId} (h : s.WindowsOkBut a) (k : s.SameView t) :
    t.WindowsOkBut a := by
  refine State.WindowsOkOn.mono (State.WindowsOkOn.sameView h k) fun b hb he => ?_
  exact (k.axes a).unreferenced (hb he)

theorem State.WindowsOkOn.retested {s : State} {a : AxisId} (h : s.WindowsOkOn (· ≠ a)) : (s.windowsOf a).WindowsOk :=
  (State.WindowsOkOn.windowsOf h a).all fun b => Classical.em (b = a)

theorem State.WindowsOkBut.windowsOf {s : State} {a : AxisId} (h : s.WindowsOkBut a) : (s.windowsOf a).WindowsOk :=
  h.others.retested

/-- A loss of reference leaves the windows of the axis as they should be, whatever position it had. -/
theorem State.WindowsOkBut.loseReference {s : State} {a : AxisId} (h : s.WindowsOkBut a) :
    (s.loseReference a).WindowsOk := by
  unfold State.loseReference
  cases hr : (s.axis a).counting.reference with
  | unreferenced => exact State.WindowsOkOn.all h fun _ _ => hr
  | referenced =>
    refine State.WindowsOkOn.retested (h.others.seen rfl fun b hb => ?_)
    rw [State.modifyAxis_axis, if_neg hb]
    exact .refl _

theorem Axis.sameView_recordFault (a : AxisId) (now : Time) (k : FaultKind) (x : Axis) :
    x.SameView (Axis.recordFault a now k x).1 :=
  Axis.sameView_of_counting (by rw [(Axis.recordFault_fst a now k x).1]) (Axis.recordFault_counting a now k x)

theorem State.WindowsOkBut.raise {s : State} {a : AxisId} (h : s.WindowsOkBut a) (k : FaultKind) :
    (s.raise a k).WindowsOk := by
  have hrecord : (s.take a (Axis.recordFault a s.timebase k)).WindowsOkBut a :=
    h.sameView (State.sameView_take (Axis.sameView_recordFault a s.timebase k _))
  exact hrecord.loseReference.sameView (State.sameView_modifyAxis (Axis.sameView_of_position rfl rfl))

theorem State.WindowsOk.raise {s : State} (h : s.WindowsOk) (a : AxisId) (k : FaultKind) : (s.raise a k).WindowsOk :=
  (h.but a).raise k

theorem State.WindowsOk.raiseLine {s : State} (h : s.WindowsOk) (a : AxisId) : (s.raiseLine a).WindowsOk := by
  unfold State.raiseLine
  exact (h.sameView (State.sameView_modifyAxis (Axis.sameView_of_position rfl rfl))).raise a .line

theorem State.WindowsOk.dropGained {s : State} (h : s.WindowsOk) (a : AxisId) : (s.dropGained a).WindowsOk := by
  unfold State.dropGained
  split
  iterate 3 exact (h.but a).loseReference
  all_goals exact h

theorem State.WindowsOk.indexCheck {s : State} (h : s.WindowsOk) (a : AxisId) : (s.indexCheck a).WindowsOk := by
  have hbaseline : ∀ c, (s.setAxis a
      { s.axis a with counting := { (s.axis a).counting with baseline := c } }).WindowsOk := fun c =>
    h.sameView (State.sameView_setAxis (Axis.sameView_of_position rfl rfl))
  unfold State.indexCheck
  dsimp only
  split
  · exact h
  split
  · exact hbaseline _
  split
  · exact hbaseline _
  · exact h.raise a .slip

theorem State.sameView_controllerMoves (s : State) (a : AxisId) (d : Dir) : s.SameView (s.controllerMoves a d) :=
  State.sameView_take (Axis.acts_positionMoved ..).sameView

/-- A counted edge: the windows are tested again behind a position change, and UNKNOWN behind OVERRANGE. -/
theorem State.WindowsOk.countEdge {s : State} (h : s.WindowsOk) (a : AxisId) (l : EncoderLevels) (order : List Block) :
    (s.countEdge a l order).WindowsOk := by
  cases hl : leadsOf (s.axis a).pins.encoder l with
  | none =>
    unfold State.countEdge
    dsimp only
    rw [hl]
    exact h.sameView (State.sameView_setAxis (Axis.sameView_of_position rfl rfl))
  | some leads =>
    generalize hd : (s.axis a).config.countSense.direction leads = d
    have hcounting : (((s.axis a).count l d).countEvent).counting = ((s.axis a).count l d).counting :=
      (Axis.acts_countEvent _).counting
    have hbut : (s.setAxis a ((s.axis a).count l d).countEvent).WindowsOkBut a :=
      h.setAxis fun hu => by rw [hcounting] at hu; exact hu
    unfold State.countEdge
    dsimp only
    rw [hl]
    dsimp only
    rw [hd]
    split
    · rename_i hr
      refine State.WindowsOkOn.all hbut fun b _ => ?_
      rw [State.setAxis_axis, if_pos rfl, hcounting]
      exact hr
    split
    · exact hbut.raise .overrange
    split
    · exact (hbut.sameView (State.sameView_controllerMoves ..)).windowsOf
    · exact hbut.windowsOf.sameView (State.sameView_controllerMoves ..)

end Sys2Proof.Machine
end

section
namespace Sys2Proof.Machine

/-! ### Axis Controllers and Capture Logs change nothing that windows see -/

theorem Axis.sameView_capture (a : AxisId) (now : Time) (active : Bool) (x : Axis) :
    x.SameView (x.capture a now active).1 := by
  unfold Axis.capture
  generalize (if active = true then Edge.rise else Edge.fall) = e
  dsimp only
  split
  · exact Axis.sameView_of_position rfl rfl
  · exact .refl x

theorem Axis.sameView_stalls (a : AxisId) (now : Time) (x : Axis) : x.SameView (x.stalls a now).1 := by
  rw [Axis.stalls_eq]
  exact Axis.sameView_of_counting (x.turnOff_config now) (Axis.recordFault_counting a now .stall x)

theorem Axis.sameView_onOrder {f : ActiveOrder → Axis → Taken} {x : Axis}
    (h : ∀ o, x.motion = .moving o → x.SameView (f o x).1) : x.SameView (x.onOrder f).1 := by
  unfold Axis.onOrder
  split
  · exact h _ (by assumption)
  all_goals exact .refl x

theorem Axis.sameView_judgeRest {x : Axis} {o : ActiveOrder} (h : x.motion = .moving o) (a : AxisId) (now : Time)
    (l : Dir → Bool) : x.SameView (x.judgeRest a now l o).1 :=
  (x.acts_judgeRest a now l o (by unfold Axis.runs; rw [h]; rfl)).sameView

/-- A claim leaves those in flight, and its Axis Controller acts. -/
theorem Axis.sameView_popClaim (x : Axis) : x.SameView x.popClaim := Axis.sameView_of_position rfl rfl

theorem Axis.sameView_stopClaim (a : AxisId) (now : Time) (x : Axis) : x.SameView (x.stopClaim a now).1 := by
  unfold Axis.stopClaim
  split
  · exact x.sameView_popClaim.trans (Axis.acts_takeStop ..).sameView
  · exact .refl x

theorem Axis.sameView_limitClaim (a : AxisId) (now : Time) (x : Axis) : x.SameView (x.limitClaim a now).1 := by
  unfold Axis.limitClaim
  split
  · exact x.sameView_popClaim.trans (Axis.acts_takeLimit ..).sameView
  · exact .refl x

theorem Axis.sameView_guardRelease (x : Axis) : x.SameView x.guardRelease.1 := by
  unfold Axis.guardRelease
  split
  · exact x.sameView_popClaim.trans (Axis.acts_takeRelease _).sameView
  · exact .refl x

theorem Axis.sameView_faultClaim (a : AxisId) (now : Time) (x : Axis) : x.SameView (x.faultClaim a now).1 := by
  unfold Axis.faultClaim
  split
  · exact .refl x
  · exact (Axis.sameView_of_position rfl rfl).trans (Axis.acts_takeFault ..).sameView

theorem Axis.sameView_hold (x : Axis) : x.SameView x.hold := by
  unfold Axis.hold
  split <;> exact Axis.sameView_of_position rfl rfl

/-- The condition of a pair is no part of the position. -/
theorem Axis.sameView_pairsChange (m : PairMismatch) (x : Axis) : x.SameView (x.pairsChange m) := by
  refine Axis.sameView_of_position ?_ rfl
  unfold Axis.pairsChange
  split
  · rfl
  · split <;> rfl

/-! ### Blocks that take an event one after another -/

theorem State.sameView_foldl {f : State → Block → State} (hf : ∀ s b, State.SameView s (f s b)) (bs : List Block)
    (s : State) : s.SameView (bs.foldl f s) := by
  induction bs generalizing s with
  | nil => exact .refl s
  | cons b bs ih => exact (hf s b).trans (ih (f s b))

theorem State.sameView_lossAt (stopped : List AxisId) (s : State) (b : Block) : s.SameView (s.lossAt stopped b) := by
  cases b
  case axisController => exact State.sameView_take (Axis.acts_linkLost ..).sameView
  case linkPort => exact .of_axes rfl rfl
  all_goals exact .refl s

theorem State.sameView_linkLoss (s : State) (order : List Block) : s.SameView (s.linkLoss order) :=
  State.SameView.trans (t := (s.setLink s.link.lose).setNotices s.notices.unsend) (.of_axes rfl rfl)
    (State.sameView_foldl (State.sameView_lossAt s.moving) _ _)

/-- Of the parties to a reference event, all but the Window Monitor leave alone what windows see. -/
theorem State.sameView_referenceAct (a : AxisId) (datum : Int) (s : State) {b : Block} (h : b ≠ .windowMonitor) :
    s.SameView (s.referenceAct a datum b) := by
  cases b
  case axisController => exact State.sameView_take (Axis.acts_endHoming ..).sameView
  case windowMonitor => exact absurd rfl h
  case captureLog => exact State.sameView_take (Axis.sameView_capture _ _ _ _)
  case linkPort => exact .refl s
  case orderStart => exact State.sameView_take (Axis.acts_takeStart ..).sameView

/-- A command that names some blocks leaves none of the parties out. -/
theorem Block.mem_arrange {order blocks : List Block} {b : Block} (h : b ∈ blocks) :
    b ∈ Block.arrange order blocks := by
  unfold Block.arrange
  rw [List.mem_append]
  by_cases ho : b ∈ order
  · exact .inl (by simpa [List.mem_eraseDups] using ⟨ho, h⟩)
  · exact .inr (by simpa using ⟨h, ho⟩)

/-- Behind a gain of reference the windows of the axis are to be tested; the Window Monitor, wherever it stands in the
order, leaves them as they should be, and the parties behind it keep them so. -/
theorem State.WindowsOkOn.referenceActs {a : AxisId} (datum : Int) {bs : List Block} (hb : Block.windowMonitor ∈ bs)
    {s : State} (h : s.WindowsOkOn (· ≠ a)) : (bs.foldl (State.referenceAct a datum) s).WindowsOk := by
  have hkeep : ∀ (bs : List Block) (t : State), t.WindowsOk → (bs.foldl (State.referenceAct a datum) t).WindowsOk := by
    intro bs
    induction bs with
    | nil => exact fun _ ht => ht
    | cons b bs ih =>
      refine fun t ht => ih _ ?_
      by_cases hm : b = .windowMonitor
      · subst hm; exact ht.windowsOf a
      · exact ht.sameView (t.sameView_referenceAct a datum hm)
  induction bs generalizing s with
  | nil => cases hb
  | cons b bs ih =>
    by_cases hm : b = .windowMonitor
    · subst hm
      exact hkeep bs _ h.retested
    · exact ih ((List.mem_cons.1 hb).resolve_left (Ne.symm hm)) (h.sameView (s.sameView_referenceAct a datum hm))

theorem State.WindowsOk.gain {s : State} (h : s.WindowsOk) (a : AxisId) (datum : Int) (mark : Bool) :
    (s.modifyAxis a (fun x => x.gain datum x.counting.raw mark)).WindowsOkOn (· ≠ a) :=
  State.WindowsOkBut.others (h.setAxis fun hr => nomatch hr)

theorem State.WindowsOk.referenceEvent {s : State} (h : s.WindowsOk) (a : AxisId) (datum : Int) (sense : Bool)
    (order : List Block) : (s.referenceEvent a datum sense order).WindowsOk :=
  (h.gain a datum (!sense)).referenceActs datum (Block.mem_arrange (by simp [referenceBlocks]))

theorem State.WindowsOk.homingSense {s : State} (h : s.WindowsOk) (a : AxisId) (r : Homing) (active : Bool)
    (order : List Block) : (s.homingSense a r active order).WindowsOk := by
  unfold State.homingSense
  dsimp only
  split
  · exact h.referenceEvent ..
  · exact (h.sameView (State.sameView_take (Axis.acts_homingGoes ..).sameView)).sameView
      (State.sameView_take (Axis.sameView_capture _ _ _ _))

theorem State.WindowsOk.homingMark {s : State} (h : s.WindowsOk) (a : AxisId) (dir : Option Dir) (order : List Block) :
    (s.homingMark a dir order).WindowsOk := by
  unfold State.homingMark
  split
  · split
    · split
      · exact h.referenceEvent ..
      · exact h
    all_goals exact h
  all_goals exact h

/-! ### Requests to an axis -/

theorem State.WindowsOk.reply {tag : Byte} {r : Answer × State} (h : r.2.WindowsOk) : (State.reply tag r).WindowsOk :=
  h.sameView (.of_axes rfl rfl)

/-- The execution of a request keeps what its rule keeps. -/
theorem State.WindowsOk.execute {s : State} (h : s.WindowsOk) (c : ReqCode) {own : List Field → State → Answer × State}
    (ho : ∀ fs u, State.WindowsOk u → (own fs u).2.WindowsOk) : (s.execute c own).WindowsOk := by
  have hpop : (s.setLink s.link.popIntake).WindowsOk := h.sameView (.of_axes rfl rfl)
  unfold State.execute
  split
  · exact h
  · refine State.WindowsOk.reply ?_
    unfold State.serve
    split
    · exact hpop
    · exact ho _ _ hpop

theorem State.WindowsOk.execute_seen {s : State} (h : s.WindowsOk) (c : ReqCode)
    {own : List Field → State → Answer × State} (ho : ∀ fs u, State.SameView u (own fs u).2) :
    (s.execute c own).WindowsOk := h.execute c fun fs u hu => hu.sameView (ho fs u)

theorem homeRule_windowsOk (fs : List Field) {s : State} (h : s.WindowsOk) : (homeRule fs s).2.WindowsOk := by
  unfold homeRule
  dsimp only
  split
  · exact h
  split
  · exact h
  split
  · exact h
  split
  · exact h
  · have hgoes : (s.take (fieldAxis fs)
        (Axis.homingGoes s.timebase ((s.axis (fieldAxis fs)).homingRecord fs))).WindowsOk :=
      h.sameView (State.sameView_take (Axis.acts_homingGoes ..).sameView)
    exact (hgoes.but _).loseReference

/-- A configuration that keeps the reference keeps KIND and MODULUS, and with them the position. -/
theorem Axis.sameView_configure {c : AxisConfig} {x : Axis} (h : x.config.dropsReference c = false) :
    x.SameView (x.configure c) := by
  simp only [AxisConfig.dropsReference, Bool.or_eq_false_iff, decide_eq_false_iff_not, not_not] at h
  obtain ⟨⟨hkind, hmodulus⟩, -⟩ := h
  refine Axis.sameView_of_position ?_ ?_
  · rw [Axis.configure_eq]
    unfold Axis.position Axis.formed
    dsimp only
    rw [hkind, hmodulus]
  · rw [Axis.configure_eq]
    exact hkind.symm

theorem State.WindowsOk.configure {s : State} (h : s.WindowsOk) (a : AxisId) (c : AxisConfig) :
    (s.configure a c).WindowsOk := by
  have hreference : ((s.axis a).configure c).counting.reference = (s.axis a).counting.reference := by
    rw [Axis.configure_eq]
  have hdrop : (if (s.axis a).config.dropsReference c then (s.modifyAxis a (Axis.configure c)).loseReference a
      else s.modifyAxis a (Axis.configure c)).WindowsOk := by
    split
    · exact State.WindowsOkBut.loseReference (h.setAxis fun hu => hreference.symm.trans hu)
    · rename_i hd
      exact h.sameView (State.sameView_modifyAxis (Axis.sameView_configure (by simpa using hd)))
  unfold State.configure
  dsimp only
  split
  · exact hdrop.raiseLine a
  · exact hdrop

theorem setAxisRule_windowsOk (fs : List Field) {s : State} (h : s.WindowsOk) : (setAxisRule fs s).2.WindowsOk := by
  unfold setAxisRule
  dsimp only
  split
  · exact h.configure ..
  · exact h

theorem teachRule_windowsOk (fs : List Field) {s : State} (h : s.WindowsOk) : (teachRule fs s).2.WindowsOk := by
  unfold teachRule
  dsimp only
  split
  · exact h
  split
  · exact h
  split
  · exact h
  · exact (h.gain _ _ false).retested

/-- A SHIFT that stores the shift moves no position; any other has the windows tested again. -/
theorem State.WindowsOk.shift {s : State} (h : s.WindowsOk) (a : AxisId) (v : Int) : (s.shift a v).WindowsOk := by
  have hbut : (s.setAxis a ((s.axis a).shifted v)).WindowsOkBut a := h.setAxis fun hu => hu
  by_cases hm : (s.axis a).counting.reference = .referenced ∧ v ≠ (s.axis a).counting.shift
  · rw [State.shift_moves hm.1 hm.2]
    exact hbut.windowsOf
  · rw [State.shift_stores hm]
    refine h.sameView (State.sameView_setAxis ?_)
    cases hr : (s.axis a).counting.reference with
    | unreferenced => exact Axis.sameView_of_unreferenced hr hr
    | referenced =>
      have hv : v = (s.axis a).counting.shift := not_not.1 fun hne => hm ⟨hr, hne⟩
      subst hv
      exact .refl _

theorem shiftRule_windowsOk (fs : List Field) {s : State} (h : s.WindowsOk) : (shiftRule fs s).2.WindowsOk := by
  unfold shiftRule
  dsimp only
  split
  · exact h
  split
  · exact h
  split
  · exact h
  · exact h.shift ..

theorem cancelRule_sameView (fs : List Field) (s : State) : s.SameView (cancelRule fs s).2 := by
  unfold cancelRule
  dsimp only
  split
  · exact State.sameView_take (Axis.acts_cancelAll ..).sameView
  split
  · exact State.sameView_take (Axis.acts_cancelTag ..).sameView
  · exact .refl s

theorem State.sameView_jog (s : State) (a : AxisId) (dir : Option Dir) (sp : Speed) (n : Nat) :
    s.SameView (s.jog a dir sp n) := by
  cases dir
  · exact State.sameView_take (Axis.acts_jogNone ..).sameView
  · exact State.sameView_modifyAxis (Axis.acts_jog ..).sameView

theorem jogRule_sameView (fs : List Field) (s : State) : s.SameView (jogRule fs s).2 := by
  unfold jogRule
  dsimp only
  split
  · exact .refl s
  split
  · exact .refl s
  split
  · exact .refl s
  split
  · exact .refl s
  · exact s.sameView_jog ..

theorem enqueueRule_sameView (fs : List Field) (s : State) : s.SameView (enqueueRule fs s).2 := by
  unfold enqueueRule
  dsimp only
  split
  · exact .refl s
  · exact State.sameView_setAxis (Axis.sameView_of_position rfl rfl)

theorem holdRule_sameView (fs : List Field) (s : State) : s.SameView (holdRule fs s).2 := by
  unfold holdRule
  dsimp only
  split
  · exact .refl s
  · exact State.sameView_modifyAxis (Axis.sameView_hold _)

theorem clearFaultRule_sameView (fs : List Field) (s : State) : s.SameView (clearFaultRule fs s).2 := by
  unfold clearFaultRule
  dsimp only
  split
  · exact .refl s
  split
  · exact .refl s
  · exact State.sameView_modifyAxis (Axis.sameView_of_position rfl rfl)

theorem closeRule_sameView (fs : List Field) (s : State) : s.SameView (closeRule fs s).2 := by
  unfold closeRule
  split
  · exact .refl s
  · refine ⟨rfl, fun a => ?_⟩
    rw [State.close_axis]
    exact (Axis.acts_holdQueue _).sameView

theorem State.WindowsOk.senseChange {s : State} (h : s.WindowsOk) (a : AxisId) (high : Bool) (order : List Block) :
    (s.senseChange a high order).WindowsOk := by
  have hlevel : (s.modifyAxis a (Axis.senseLevel high)).WindowsOk :=
    h.sameView (State.sameView_modifyAxis (Axis.sameView_of_position rfl rfl))
  have hhome : ((s.modifyAxis a (Axis.senseLevel high)).homeAtEdge order).WindowsOk := by
    unfold State.homeAtEdge
    split
    · exact hlevel.execute _ fun fs _ hu => homeRule_windowsOk fs hu
    · exact hlevel
  unfold State.senseChange
  dsimp only
  split
  · exact hlevel.homingSense ..
  all_goals exact hhome.sameView (State.sameView_take (Axis.sameView_capture _ _ _ _))

end Sys2Proof.Machine
end

section
namespace Sys2Proof.Machine

/-! ### Requests to the Window Monitor -/

theorem occupancyAt_put (ws : Table Window) (n m : Nat) (v : Window) :
    occupancyAt (Table.put n v ws) m = if m = n then v.occupancy else occupancyAt ws m := by
  unfold occupancyAt
  rw [Table.find_put]
  by_cases h : m = n <;> simp [h]

/-- What is found in a store behind a removal was there, under another key. -/
theorem occupancyAt_drop {n m : Nat} (h : m ≠ n) (ws : Table Window) :
    occupancyAt (Table.drop n ws) m = occupancyAt ws m := by
  unfold occupancyAt
  rw [Table.find_drop, if_neg h]

/-- An output that was or is window-owned has host value off (R146). -/
theorem WindowMonitor.hostAfter_owned (m : WindowMonitor) (ws : Table Window) :
    m.hostAfter ws &&& { m with windows := ws }.owned = 0 := by
  unfold WindowMonitor.hostAfter
  generalize ({ m with windows := ws } : WindowMonitor).owned = new
  generalize m.owned = old
  refine BitVec.eq_of_getLsbD_eq fun i hi => ?_
  simp only [BitVec.getLsbD_and, BitVec.getLsbD_not, BitVec.getLsbD_or, hi, decide_true, Bool.true_and]
  cases new.getLsbD i <;> simp

/-- The host values of SET-OUTPUTS (R145), output by output. -/
theorem WindowMonitor.setHost_hostValues (mask values : BitVec 8) (m : WindowMonitor) {i : Nat} (hi : i < 8) :
    (m.setHost mask values).hostValues.getLsbD i =
      if mask.getLsbD i then values.getLsbD i else m.hostValues.getLsbD i := by
  unfold WindowMonitor.setHost
  simp only [BitVec.getLsbD_and, BitVec.getLsbD_not, BitVec.getLsbD_or, hi, decide_true, Bool.true_and]
  cases mask.getLsbD i <;> simp

/-- Host values set at outputs that no window owns (R145, R146). -/
theorem WindowMonitor.setHost_owned {mask : BitVec 8} {m : WindowMonitor} (hm : mask &&& m.owned = 0)
    (hh : m.hostValues &&& m.owned = 0) (values : BitVec 8) :
    (m.setHost mask values).hostValues &&& (m.setHost mask values).owned = 0 := by
  show (m.setHost mask values).hostValues &&& m.owned = 0
  refine BitVec.eq_of_getLsbD_eq fun i hi => ?_
  have hmask := congrArg (BitVec.getLsbD · i) hm
  have hhost := congrArg (BitVec.getLsbD · i) hh
  simp only [BitVec.getLsbD_and] at hmask hhost ⊢
  rw [WindowMonitor.setHost_hostValues _ _ _ hi]
  split
  · rename_i hset
    rw [hset, Bool.true_and] at hmask
    simp [hmask]
  · exact hhost

/-- PUT-WINDOW tests the window it writes and evaluates the guards that have it as a member. -/
theorem State.WindowsOk.putWindow {s : State} (h : s.WindowsOk) (n : Nat) (v : Window) :
    (s.putWindow n v).WindowsOk := by
  refine State.WindowsOkOn.all (on := fun _ => True)
    (State.windowsOkOn_monitorTakes h.members h.tripped ?_ ?_ ?_ ?_) (fun _ => trivial)
  · intro e he _
    rcases Table.mem_put _ _ _ _ he with rfl | he
    · rfl
    · exact h.tested e he
  · intro m hm
    rw [Table.find_put]
    split
    · rfl
    · exact hm
  · intro g hg m hm
    rw [occupancyAt_put, if_neg]
    · rfl
    · rintro rfl
      simp [hm] at hg
  · exact s.monitor.hostAfter_owned _

theorem putWindowRule_windowsOk (fs : List Field) {s : State} (h : s.WindowsOk) : (putWindowRule fs s).2.WindowsOk := by
  unfold putWindowRule
  dsimp only
  split
  · exact h
  · exact h.putWindow ..

/-- A window that no guard has as a member may go. -/
theorem State.WindowsOk.dropWindow {s : State} (h : s.WindowsOk) {n : Nat}
    (hn : ∀ e ∈ s.monitor.guards, n ∉ e.2.members) : (s.setMonitor (s.monitor.dropWindow n)).WindowsOk := by
  have hne : ∀ e ∈ s.monitor.guards, ∀ m ∈ e.2.members, m ≠ n := fun e he m hm hmn => hn e he (hmn ▸ hm)
  refine ⟨fun e he => h.tested e (List.mem_of_mem_filter he), fun e he m hm => ?_, fun e he hst m hm => ?_, ?_⟩
  · refine Eq.trans (congrArg _ ?_) (h.members e he m hm)
    exact (Table.find_drop ..).trans (if_neg (hne e he m hm))
  · exact fun hv => h.tripped e he hst m hm ((occupancyAt_drop (hne e he m hm) _).symm.trans hv)
  · exact s.monitor.hostAfter_owned _

theorem dropWindowRule_windowsOk (fs : List Field) {s : State} (h : s.WindowsOk) :
    (dropWindowRule fs s).2.WindowsOk := by
  unfold dropWindowRule
  dsimp only
  split
  · exact h
  split
  · exact h
  · rename_i hany
    refine h.dropWindow fun e he hm => hany ?_
    exact List.any_eq_true.2 ⟨e, he, List.contains_iff_mem.2 hm⟩

/-- A change of the guards alone. -/
theorem State.WindowsOk.setGuards {s : State} (h : s.WindowsOk) {gs : Table Guard}
    (hg : ∀ e ∈ gs, e ∈ s.monitor.guards ∨
      (∀ n ∈ e.2.members, (Table.find n s.monitor.windows).isSome = true) ∧
        (e.2.state = .tripped → ∀ n ∈ e.2.members, occupancyAt s.monitor.windows n ≠ .vacant)) :
    (s.setMonitor { s.monitor with guards := gs }).WindowsOk := by
  refine ⟨h.tested, fun e he => ?_, fun e he => ?_, h.hosts⟩
  · rcases hg e he with hold | ⟨hmembers, -⟩
    · exact h.members e hold
    · exact hmembers
  · rcases hg e he with hold | ⟨-, htripped⟩
    · exact h.tripped e hold
    · exact htripped

theorem State.sameView_offers (s : State) (bs : List NoticeBody) : s.SameView (s.offers bs) :=
  ⟨s.offers_monitor bs, fun a => by rw [State.offers_axis]; exact .refl _⟩

theorem State.sameView_sends (s : State) (cs : List (AxisId × Claim)) : s.SameView (s.sends cs) :=
  ⟨s.sends_monitor cs, fun a => (s.sends_same cs a).sameView⟩

/-- The lists of an accepted PUT-GUARD name DEFINED windows (R140). -/
theorem Guard.members_of_accepted {ws : Table Window} {g : Guard} (h : g.refused ws = none) :
    ∀ n ∈ g.members, (Table.find n ws).isSome = true := by
  unfold Guard.refused at h
  split at h
  · cases h
  split at h
  · cases h
  split at h
  · cases h
  · rename_i hall
    exact List.all_eq_true.1 (Bool.eq_true_of_not_eq_false hall)

theorem putGuardRule_windowsOk (fs : List Field) {s : State} (h : s.WindowsOk) : (putGuardRule fs s).2.WindowsOk := by
  unfold putGuardRule
  dsimp only
  split
  · exact h
  · rename_i haccepted
    have hmembers := Guard.members_of_accepted haccepted
    unfold State.putGuard
    refine State.WindowsOk.sameView ?_ ((State.sameView_offers _ _).trans (State.sameView_sends _ _))
    refine h.setGuards fun e he => ?_
    rcases Table.mem_put _ _ _ _ he with rfl | he
    · exact .inr ⟨hmembers, Guard.next_sound (g := guardOf fs s.monitor.guards)⟩
    · exact .inl he

theorem dropGuardRule_windowsOk (fs : List Field) {s : State} (h : s.WindowsOk) : (dropGuardRule fs s).2.WindowsOk := by
  unfold dropGuardRule
  dsimp only
  split
  · exact h
  · exact (h.setGuards fun e he => .inl (List.mem_of_mem_filter he)).sameView (State.sameView_sends _ _)

theorem setOutputsRule_windowsOk (fs : List Field) {s : State} (h : s.WindowsOk) :
    (setOutputsRule fs s).2.WindowsOk := by
  unfold setOutputsRule
  dsimp only
  split
  · exact h
  · rename_i hmask
    exact ⟨h.tested, h.members, h.tripped, WindowMonitor.setHost_owned (not_not.1 hmask) h.hosts _⟩

/-! ### Commands -/

/-- A reset empties the Window Monitor (R192). -/
theorem State.windowsOk_resetTo (s : State) (c : Cause) (st : Straps) (held : Bool) : (s.resetTo c st held).WindowsOk :=
  ⟨fun _ he => absurd he List.not_mem_nil, fun _ he => absurd he List.not_mem_nil,
    fun _ he => absurd he List.not_mem_nil, BitVec.zero_and⟩

/-- An expiry keeps what its effect keeps. -/
theorem State.WindowsOk.expire {s : State} (h : s.WindowsOk) {f : State → State}
    (hf : ∀ u, State.WindowsOk u → (f u).WindowsOk) (t : Option Timer) (late : Nat) :
    (s.expire t late f).WindowsOk := by
  rcases s.expire_cases t late f with e | ⟨u, -, -, e⟩
  · rw [e]
    exact h
  · rw [e]
    exact hf _ (h.sameView (s.sameView_advance _))

theorem State.WindowsOk.lineConditionArises {s : State} (h : s.WindowsOk) (a : AxisId) :
    (s.lineConditionArises a).WindowsOk := by
  have harises : (s.modifyAxis a (fun x =>
      { x with counting := { x.counting with lineFault := true, lineTimer := none } })).WindowsOk :=
    h.sameView (State.sameView_modifyAxis (Axis.sameView_of_position rfl rfl))
  unfold State.lineConditionArises
  dsimp only
  split
  · exact harises.raiseLine a
  · exact harises

theorem State.WindowsOk.frameEnds {s : State} (h : s.WindowsOk) (st : Straps) : (s.frameEnds st).WindowsOk := by
  unfold State.frameEnds
  split
  · exact s.windowsOk_resetTo ..
  all_goals exact h.sameView (.of_axes rfl rfl)

/-- What every command does to windows and guards keeps them as they should be. -/
theorem exec_windowsOk (i : Instr) {s t : State} (h : s.WindowsOk) (e : exec i s = .next t) : t.WindowsOk := by
  cases i <;> simp only [Machine.exec] at e <;> cases e
  case setAxis => exact h.execute _ fun fs _ hu => setAxisRule_windowsOk fs hu
  case home => exact h.execute _ fun fs _ hu => homeRule_windowsOk fs hu
  case teach => exact h.execute _ fun fs _ hu => teachRule_windowsOk fs hu
  case shift => exact h.execute _ fun fs _ hu => shiftRule_windowsOk fs hu
  case putWindow => exact h.execute _ fun fs _ hu => putWindowRule_windowsOk fs hu
  case dropWindow => exact h.execute _ fun fs _ hu => dropWindowRule_windowsOk fs hu
  case putGuard => exact h.execute _ fun fs _ hu => putGuardRule_windowsOk fs hu
  case dropGuard => exact h.execute _ fun fs _ hu => dropGuardRule_windowsOk fs hu
  case setOutputs => exact h.execute _ fun fs _ hu => setOutputsRule_windowsOk fs hu
  case closeSession => exact h.execute_seen _ closeRule_sameView
  case clearFault => exact h.execute_seen _ clearFaultRule_sameView
  case enqueue => exact h.execute_seen _ enqueueRule_sameView
  case cancel => exact h.execute_seen _ cancelRule_sameView
  case hold => exact h.execute_seen _ holdRule_sameView
  case jog => exact h.execute_seen _ jogRule_sameView
  case stop => exact h.execute_seen _ fun _ u => State.sameView_take (Axis.acts_stop ..).sameView
  case release | setCapture | readCaptures =>
    exact h.execute_seen _ fun _ u => State.sameView_modifyAxis (Axis.sameView_of_position rfl rfl)
  case ping | identify | restart | getAxis | axisStatus | listStations | listOrders | resendNotices =>
    exact h.execute_seen _ fun _ u => .of_axes rfl rfl
  case openSession | linkStatus | getStation | getProfile | getWindow | getGuard | ackNotices | putStation |
      dropStation | putProfile | dropProfile =>
    refine h.execute_seen _ fun fs u => ?_
    dsimp only [openRule, linkStatusRule, getStationRule, getProfileRule, getWindowRule, getGuardRule, ackNoticesRule,
      putStationRule, dropStationRule, putProfileRule, dropProfileRule]
    repeat' split
    all_goals exact .of_axes rfl rfl
  case frameGapExpiry =>
    refine h.expire (fun u hu => ?_) _ _
    exact hu.sameView (.of_axes rfl rfl)
  case frameEnd moment => exact h.expire (fun _ hu => hu.frameEnds moment.straps) _ _
  case keepaliveExpiry order moment =>
    refine h.expire (fun u hu => ?_) _ _
    have hloss := hu.sameView (u.sameView_linkLoss order)
    split
    · exact hu
    unfold State.restartAfterLoss
    split
    · exact State.windowsOk_resetTo ..
    all_goals exact hloss
  case reset => exact s.windowsOk_resetTo ..
  case countEdge a levels order => exact h.countEdge a levels order
  case indexMark a edge order =>
    have hedge : (s.sameInstantEdge a edge order).WindowsOk := by
      cases edge
      · exact h
      · exact h.countEdge a _ order
    exact (hedge.indexCheck a).homingMark a _ order
  case senseEdge a high order =>
    split
    · exact h
    · exact h.senseChange a high order
  case linePairChange a m => exact h.sameView (State.sameView_modifyAxis (Axis.sameView_pairsChange m _))
  case lineTimerExpiry a _ => exact h.expire (fun _ hu => hu.lineConditionArises a) _ _
  case stallTimerExpiry =>
    exact h.expire (fun _ hu => hu.sameView (State.sameView_take (Axis.sameView_stalls _ _ _))) _ _
  case homingLimitExpiry =>
    exact h.expire (fun _ hu => hu.sameView (State.sameView_take (Axis.acts_failHoming ..).sameView)) _ _
  case settleTimerExpiry | moveLimitExpiry =>
    refine h.expire (fun _ hu => hu.sameView (State.sameView_take (Axis.sameView_onOrder fun _ _ => ?_))) _ _
    exact (Axis.acts_endOrder ..).sameView
  case restTimerExpiry =>
    refine h.expire (fun _ hu => hu.sameView (State.sameView_take (Axis.sameView_onOrder fun _ ho => ?_))) _ _
    exact Axis.sameView_judgeRest ho _ _ _
  case lockoutTimerExpiry =>
    exact h.expire (fun _ hu => hu.sameView (State.sameView_take (Axis.acts_lockoutExpired ..).sameView)) _ _
  case deadmanExpiry =>
    exact h.expire (fun _ hu => hu.sameView (State.sameView_take (Axis.acts_endJog ..).sameView)) _ _
  case orderStart => exact h.sameView (State.sameView_take (Axis.acts_takeStart ..).sameView)
  case stopClaim => exact h.sameView (State.sameView_take (Axis.sameView_stopClaim _ _ _))
  case limitClaim => exact h.sameView (State.sameView_take (Axis.sameView_limitClaim _ _ _))
  case guardRelease => exact h.sameView (State.sameView_take (Axis.sameView_guardRelease _))
  case faultClaim a => exact (h.dropGained a).sameView (State.sameView_take (Axis.sameView_faultClaim _ _ _))
  case noticeFrameStart => split <;> exact h.sameView (.of_axes rfl rfl)
  case retryFromCache | frameReceived | replyFrameStart | byteReceived => exact h.sameView (.of_axes rfl rfl)
  case unknownRequestCode =>
    unfold State.executeUnknown
    split <;> exact h.sameView (.of_axes rfl rfl)

/-- Settles O11: a step runs a command, and each command keeps windows and guards (`exec_windowsOk`), or lets time pass,
which they do not see. -/
theorem stepsKeepWindowsAndGuards : Obligations.StepsKeepWindowsAndGuards := by
  intro s t h e
  unfold step at e
  split at e
  · rename_i rest _
    exact exec_windowsOk _ (h.sameView (t := s.withPending rest) (.of_axes rfl rfl)) e
  · split at e
    · exact exec_windowsOk _ h e
    · cases e
      exact h.sameView (s.sameView_advance 1000)

end Sys2Proof.Machine
end

section
namespace Sys2Proof.Machine

/-! ### Outputs -/

/-- The set that holds one output holds that one alone. -/
theorem outputBit_getLsbD {o n : Nat} (hn : 1 ≤ n) (hn8 : n ≤ 8) (ho : o ≤ 8) :
    (outputBit o).getLsbD (n - 1) = true ↔ o = n := by
  unfold outputBit
  split
  · rename_i h0
    simp
    omega
  · rename_i h0
    simp [BitVec.getLsbD_shiftLeft, BitVec.getLsbD_one]
    omega

/-- An output is in the set of a test when a window that passes the test names it. -/
theorem WindowMonitor.outputsOf_getLsbD (m : WindowMonitor) (p : Window → Bool) (i : Nat) :
    (m.outputsOf p).getLsbD i = true ↔ ∃ e ∈ m.windows, p e.2 = true ∧ (outputBit e.2.output).getLsbD i = true := by
  have hfold : ∀ (ws : Table Window) (acc : BitVec 8),
      (ws.foldl (fun acc e => if p e.2 then acc ||| outputBit e.2.output else acc) acc).getLsbD i = true ↔
        acc.getLsbD i = true ∨ ∃ e ∈ ws, p e.2 = true ∧ (outputBit e.2.output).getLsbD i = true := by
    intro ws
    induction ws with
    | nil => simp
    | cons e ws ih =>
      intro acc
      rw [List.foldl_cons, ih]
      by_cases hp : p e.2 = true
      · simp [hp, or_assoc]
      · simp [hp]
  unfold WindowMonitor.outputsOf
  rw [hfold]
  simp

section
variable {m : WindowMonitor} {n : Nat} (hn : 1 ≤ n) (hn8 : n ≤ 8) (hm : ∀ e ∈ m.windows, e.2.output ≤ 8)
include hn hn8 hm

/-- The outputs named by the windows of a test (R144). -/
theorem WindowMonitor.outputsOf_iff (p : Window → Bool) :
    (m.outputsOf p).getLsbD (n - 1) = true ↔ ∃ e ∈ m.windows, e.2.output = n ∧ p e.2 = true := by
  rw [WindowMonitor.outputsOf_getLsbD]
  refine exists_congr fun e => and_congr_right fun he => ?_
  rw [outputBit_getLsbD hn hn8 (hm e he), and_comm]

theorem WindowMonitor.owned_iff : m.owned.getLsbD (n - 1) = true ↔ ∃ e ∈ m.windows, e.2.output = n := by
  unfold WindowMonitor.owned
  rw [WindowMonitor.outputsOf_iff hn hn8 hm]
  simp

theorem WindowMonitor.on_owned (h : m.owned.getLsbD (n - 1) = true) :
    m.on.getLsbD (n - 1) = true ↔ ∃ e ∈ m.windows, e.2.output = n ∧ e.2.occupancy = .occupied := by
  unfold WindowMonitor.on
  rw [BitVec.getLsbD_or, BitVec.getLsbD_and, BitVec.getLsbD_not, h]
  simpa using WindowMonitor.outputsOf_iff hn hn8 hm (fun v => decide (v.occupancy = .occupied))

theorem WindowMonitor.on_hosted (h : m.owned.getLsbD (n - 1) = false) :
    m.on.getLsbD (n - 1) = m.hostValues.getLsbD (n - 1) := by
  have hoff : (m.outputsOf (fun v => decide (v.occupancy = .occupied))).getLsbD (n - 1) = false := by
    refine Bool.eq_false_iff.2 fun hon => ?_
    obtain ⟨e, he, ho, -⟩ := (WindowMonitor.outputsOf_iff hn hn8 hm _).1 hon
    rw [(WindowMonitor.owned_iff hn hn8 hm).2 ⟨e, he, ho⟩] at h
    cases h
  unfold WindowMonitor.on
  rw [BitVec.getLsbD_or, BitVec.getLsbD_and, BitVec.getLsbD_not, h, hoff]
  simp
  omega

end

/-- SET-OUTPUTS that names a window-owned output (R145). -/
theorem setOutputsRule_owned {fs : List Field} {s : State}
    (h : BitVec.ofInt 8 (fieldInt fs .mask) &&& s.monitor.owned ≠ 0) :
    setOutputsRule fs s = (⟨.owned, s.monitor.outputFields, [], []⟩, s) := if_pos h

/-- SET-OUTPUTS of outputs that the host owns (R145). -/
theorem setOutputsRule_sets {fs : List Field} {s : State}
    (h : BitVec.ofInt 8 (fieldInt fs .mask) &&& s.monitor.owned = 0) :
    let m := s.monitor.setHost (BitVec.ofInt 8 (fieldInt fs .mask)) (BitVec.ofInt 8 (fieldInt fs .values))
    setOutputsRule fs s = (.ok m.outputFields, s.setMonitor m) := if_neg (not_not.2 h)

/-- Settles O54: the sets of outputs read bit by bit, and the two branches of SET-OUTPUTS. -/
theorem outputsFollowOwnersAndHost : Obligations.OutputsFollowOwnersAndHost := by
  refine ⟨fun m n hn hn8 hm => ⟨?_, ?_, ?_⟩, fun s r fs h => ⟨fun hmask => ?_, fun hmask => ?_⟩⟩
  · exact WindowMonitor.owned_iff hn hn8 hm
  · exact WindowMonitor.on_owned hn hn8 hm
  · exact WindowMonitor.on_hosted hn hn8 hm
  · exact h.reports (setOutputsRule_owned hmask)
  · refine ⟨s.monitor.setHost (BitVec.ofInt 8 (fieldInt fs .mask)) (BitVec.ofInt 8 (fieldInt fs .values)), rfl, rfl,
      fun i hi => WindowMonitor.setHost_hostValues _ _ _ hi, ?_⟩
    exact congrArg Host.Outcome.next (h.executes (t := s.setMonitor _) (setOutputsRule_sets hmask) rfl)

end Sys2Proof.Machine
end

section
namespace Sys2Proof.Machine

/-! ### DROP-WINDOW and GET-WINDOW -/

theorem dropWindowRule_absent {fs : List Field} {s : State}
    (h : Table.find (fieldNat fs .window) s.monitor.windows = none) :
    dropWindowRule fs s = (.bare .noSuch, s) :=
  if_pos (Option.isNone_iff_eq_none.2 h)

theorem WindowMonitor.hasMember_iff (m : WindowMonitor) (n : Nat) :
    m.guards.any (fun e => e.2.members.contains n) = true ↔ ∃ e ∈ m.guards, n ∈ e.2.members := by
  simp only [List.any_eq_true, List.contains_iff_mem]

section
variable {fs : List Field} {s : State} (hw : Table.find (fieldNat fs .window) s.monitor.windows ≠ none)
include hw

/-- A window that a guard has as a member stays (R138). -/
theorem dropWindowRule_inUse (h : ∃ e ∈ s.monitor.guards, fieldNat fs .window ∈ e.2.members) :
    dropWindowRule fs s = (.bare .inUse, s) :=
  (if_neg (mt Option.isNone_iff_eq_none.1 hw)).trans (if_pos ((s.monitor.hasMember_iff _).2 h))

theorem dropWindowRule_drops (h : ∀ e ∈ s.monitor.guards, fieldNat fs .window ∉ e.2.members) :
    dropWindowRule fs s = (.ok [], s.setMonitor (s.monitor.dropWindow (fieldNat fs .window))) := by
  refine (if_neg (mt Option.isNone_iff_eq_none.1 hw)).trans (if_neg fun hany => ?_)
  obtain ⟨e, he, hm⟩ := (s.monitor.hasMember_iff _).1 hany
  exact h e he hm

end

theorem getWindowRule_absent {fs : List Field} {s : State}
    (h : Table.find (fieldNat fs .window) s.monitor.windows = none) :
    getWindowRule fs s = (.bare .noSuch, s) := by
  unfold getWindowRule
  rw [h]

theorem getWindowRule_held {fs : List Field} {s : State} {w : Window}
    (h : Table.find (fieldNat fs .window) s.monitor.windows = some w) :
    getWindowRule fs s = (.ok ((.window, fieldInt fs .window) :: w.fields), s) := by
  unfold getWindowRule
  rw [h]

/-! ### DROP-GUARD and GET-GUARD -/

theorem dropGuardRule_absent {fs : List Field} {s : State}
    (h : Table.find (fieldNat fs .guard) s.monitor.guards = none) :
    dropGuardRule fs s = (.bare .noSuch, s) :=
  if_pos (Option.isNone_iff_eq_none.2 h)

theorem dropGuardRule_drops {fs : List Field} {s : State}
    (h : Table.find (fieldNat fs .guard) s.monitor.guards ≠ none) :
    dropGuardRule fs s = (.ok [], s.dropGuard (fieldNat fs .guard)) :=
  if_neg (mt Option.isNone_iff_eq_none.1 h)

/-- DROP-GUARD leaves the Link Port out. -/
theorem State.dropGuard_setLink (s : State) (l : LinkPort) (n : Nat) :
    (s.setLink l).dropGuard n = (s.dropGuard n).setLink l := by
  unfold State.dropGuard
  dsimp only
  rw [← State.sends_setLink]
  rfl

theorem AxisId.all_filter_eq (b : AxisId) : AxisId.all.filter (fun a => decide (a = b)) = [b] := by
  cases b <;> rfl

/-- Of the releases of an event, an axis gets one, when it has ceased to be named by a TRIPPED guard (R134). -/
theorem releases_to (old new : WindowMonitor) (b : AxisId) :
    ((releases old new).filter (fun c => decide (c.1 = b))).map (·.2) =
      if old.guarded b = true ∧ new.guarded b = false then [.release] else [] := by
  have hswap : (releases old new).filter (fun c => decide (c.1 = b)) =
      ([b].filter (fun a => old.guarded a && !new.guarded a)).map (fun a => (a, .release)) := by
    rw [← AxisId.all_filter_eq b, List.filter_filter]
    unfold releases
    rw [List.filter_map, List.filter_filter]
    simp only [Function.comp_def, Bool.and_comm]
  rw [hswap]
  by_cases hf : old.guarded b = true ∧ new.guarded b = false
  · simp [hf]
  · have hnone : (old.guarded b && !new.guarded b) = false := by simpa using hf
    rw [if_neg hf, List.filter_singleton, hnone]
    rfl

theorem State.dropGuard_monitor (s : State) (n : Nat) :
    (s.dropGuard n).monitor = { s.monitor with guards := Table.drop n s.monitor.guards } := by
  unfold State.dropGuard
  simp

/-- The axes behind DROP-GUARD: each that the guard alone held has its release (R142). -/
theorem State.dropGuard_axis (s : State) (n : Nat) (b : AxisId) :
    (s.dropGuard n).axis b =
      { s.axis b with
        claims := (s.axis b).claims ++
          if s.monitor.guarded b = true ∧ (s.dropGuard n).monitor.guarded b = false then [.release] else [] } := by
  rw [State.dropGuard_monitor]
  unfold State.dropGuard
  dsimp only
  rw [State.sends_axis, releases_to]
  rfl

theorem getGuardRule_absent {fs : List Field} {s : State}
    (h : Table.find (fieldNat fs .guard) s.monitor.guards = none) :
    getGuardRule fs s = (.bare .noSuch, s) := by
  unfold getGuardRule
  rw [h]

theorem getGuardRule_held {fs : List Field} {s : State} {g : Guard}
    (h : Table.find (fieldNat fs .guard) s.monitor.guards = some g) :
    getGuardRule fs s = (.ok ((.guard, fieldInt fs .guard) :: g.fields), s) := by
  unfold getGuardRule
  rw [h]

/-- Settles O56: the branches of the four rules, and what the stores and the axes hold behind a removal. -/
theorem windowsAndGuardsAreDroppedAndRead : Obligations.WindowsAndGuardsAreDroppedAndRead := by
  refine ⟨fun s r fs => ⟨fun h => ⟨fun hw => ?_, fun hw hg => ?_, fun hw hg => ?_⟩,
      fun h => ⟨fun hw => ?_, fun w hw => ?_⟩⟩,
    fun s r fs => ⟨fun h => ⟨fun hg => ?_, fun hg => ?_⟩, fun h => ⟨fun hg => ?_, fun g hg => ?_⟩⟩⟩
  · exact h.reports (dropWindowRule_absent hw)
  · exact h.reports (dropWindowRule_inUse hw hg)
  · refine ⟨s.monitor.dropWindow (fieldNat fs .window), ?_, rfl, ?_, fun j hj => ?_, rfl⟩
    · exact congrArg Host.Outcome.next (h.executes (t := s.setMonitor _) (dropWindowRule_drops hw hg) rfl)
    · exact (Table.find_drop ..).trans (if_pos rfl)
    · exact (Table.find_drop ..).trans (if_neg hj)
  · exact h.reports (getWindowRule_absent hw)
  · exact h.reports (getWindowRule_held hw)
  · exact h.reports (dropGuardRule_absent hg)
  · generalize hn : fieldNat fs .guard = n
    have hexec : exec .dropGuard s = .next ((s.dropGuard n).answered r (.ok [])) := by
      subst hn
      refine congrArg Host.Outcome.next (h.executes (own := dropGuardRule) ?_ (by simp [State.dropGuard]))
      rw [dropGuardRule_drops (s := s.setLink s.link.popIntake) hg, State.dropGuard_setLink]
    have hmonitor : ((s.dropGuard n).answered r (.ok [])).monitor =
        { s.monitor with guards := Table.drop n s.monitor.guards } := s.dropGuard_monitor n
    refine ⟨_, hexec, ?_, fun j hj => ?_, ?_, ?_, ?_, s.dropGuard_axis n, ?_, ?_, ?_, ?_⟩
    · rw [hmonitor]
      exact (Table.find_drop ..).trans (if_pos rfl)
    · rw [hmonitor]
      exact (Table.find_drop ..).trans (if_neg hj)
    · rw [hmonitor]
    · rw [hmonitor]
    all_goals simp [State.answered, State.dropGuard, Answer.ok]
  · exact h.reports (getGuardRule_absent hg)
  · exact h.reports (getGuardRule_held hg)

end Sys2Proof.Machine
end

section
namespace Sys2Proof.Machine

/-! ### PUT-WINDOW -/

theorem flagValue_isNone {α : Type} (o : Option α) : flagValue o.isNone = if o = none then 1 else 0 := by
  cases o <;> rfl

/-- The bounds of a window on a LINEAR axis (R136). -/
theorem Window.badBound_linear {c : AxisConfig} (hk : c.kind = .linear) (v : Window) :
    v.badBound c = if v.upper < v.lower then some .upper else none := by
  unfold Window.badBound
  rw [hk]

/-- The bounds of a window on a ROTARY axis (R136). -/
theorem Window.badBound_rotary {c : AxisConfig} (hk : c.kind = .rotary) (v : Window) :
    v.badBound c =
      if within 0 (c.modulus - 1) v.lower = false then some .lower
      else if within 0 (c.modulus - 1) v.upper = false then some .upper
      else none := by
  unfold Window.badBound
  rw [hk]

theorem within_modulus {m : Nat} {v : Int} : within 0 (m - 1) v = true ↔ 0 ≤ v ∧ v < m :=
  within_iff.trans (and_congr_right fun _ => Int.le_sub_one_iff)

theorem within_modulus_false {m : Nat} {v : Int} : within 0 (m - 1) v = false ↔ v < 0 ∨ m ≤ v := by
  rw [← Bool.not_eq_true, within_modulus]
  omega

/-- The window of a PUT-WINDOW with bad bounds is not written (R136). -/
theorem putWindowRule_refused {fs : List Field} {s : State} {f : FieldId}
    (h : (windowOf fs).badBound (s.axis (fieldAxis fs)).config = some f) :
    putWindowRule fs s = (.detail .badValue f.code, s) := by
  unfold putWindowRule
  dsimp only
  rw [show (windowOf fs).axis = fieldAxis fs from rfl, h]

theorem putWindowRule_writes {fs : List Field} {s : State}
    (h : (windowOf fs).badBound (s.axis (fieldAxis fs)).config = none) :
    putWindowRule fs s =
      (.ok [(.created, if Table.find (fieldNat fs .window) s.monitor.windows = none then 1 else 0),
          (.occupancy, ((windowOf fs).test (s.axis (fieldAxis fs))).code)],
        s.putWindow (fieldNat fs .window) (windowOf fs)) := by
  unfold putWindowRule
  dsimp only
  rw [show (windowOf fs).axis = fieldAxis fs from rfl, h, flagValue_isNone]

/-- PUT-WINDOW leaves the Link Port out. -/
theorem State.putWindow_setLink (s : State) (l : LinkPort) (n : Nat) (v : Window) :
    (s.setLink l).putWindow n v = (s.putWindow n v).setLink l := by
  unfold State.putWindow
  dsimp only
  rw [← State.monitorTakes_setLink]
  rfl

theorem State.putWindow_link (s : State) (n : Nat) (v : Window) : (s.putWindow n v).link = s.link := by
  unfold State.putWindow
  simp

theorem Report.asks_enter_iff (r : Report) : r.asks .enter = true ↔ r = .enter ∨ r = .both := by
  cases r <;> simp [Report.asks]

theorem Report.asks_leave_iff (r : Report) : r.asks .leave = true ↔ r = .leave ∨ r = .both := by
  cases r <;> simp [Report.asks]

/-- The WINDOW notice of a written window: an entry or a leave of its slot that its REPORT asks for (R127, R137). -/
theorem windowNotices_written {ws : Table Window} (h : Table.wf ws) (position : Option Int) (n : Nat) (v : Window) :
    windowNotices position ws (Table.put n v ws) =
      match position with
      | none => []
      | some p =>
        if occupancyAt ws n ≠ .occupied ∧ v.occupancy = .occupied ∧ (v.report = .enter ∨ v.report = .both) then
          [.window n .enter p]
        else if occupancyAt ws n = .occupied ∧ v.occupancy = .vacant ∧ (v.report = .leave ∨ v.report = .both) then
          [.window n .leave p]
        else [] := by
  rw [windowNotices_put h]
  cases position with
  | none => cases crossingOf (occupancyAt ws n) v.occupancy <;> rfl
  | some p =>
    cases occupancyAt ws n <;> cases v.occupancy <;>
      simp [crossingOf, Report.asks_enter_iff, Report.asks_leave_iff]

/-- The Window Monitor behind the write of a window: the guards that have it as a member are evaluated (R137, R146). -/
def WindowMonitor.written (m : WindowMonitor) (n : Nat) (v : Window) : WindowMonitor :=
  let ws := Table.put n v m.windows
  { windows := ws
    guards := m.guards.map (fun e => (e.1, { e.2 with state := e.2.after ws (fun g => g.members.contains n) }))
    hostValues := m.hostAfter ws }

/-- What goes out when a window is written (R127, R130, R132 to R134, R137). -/
theorem State.putWindow_sends (s : State) (n : Nat) (v : Window) (hg : Table.wf s.monitor.guards) :
    let m := s.monitor
    let x := s.axis v.axis
    let w := { v with occupancy := v.test x }
    let ws := Table.put n w m.windows
    let after := Guard.after ws (fun g => g.members.contains n)
    s.putWindow n v =
      ((s.setMonitor (m.written n w)).offers
        (windowNotices x.position m.windows ws ++
          m.guards.flatMap (fun e => if after e.2 = e.2.state then [] else [.guard e.1 (after e.2)]))).sends
        (m.guards.flatMap (fun e : Nat × Guard =>
            if e.2.state = .clear ∧ after e.2 = .tripped then e.2.stopAxes.map (fun b => (b, .stop)) else []) ++
          releases m (m.written n w) ++
          limitClaims (fun k u => decide (k = n) && decide (u.occupancy = .occupied)) ws) := by
  intro m x w ws after
  unfold WindowMonitor.written
  dsimp only
  rw [← evaluate_eq, ← guardNotices_evaluate hg, ← stopClaims_evaluate hg]
  rfl

/-- A guard behind the write of a window: evaluated when it has the window as a member, and kept otherwise. -/
theorem Guard.after_member (ws : Table Window) (n : Nat) (g : Guard) :
    g.after ws (fun g => g.members.contains n) = if n ∈ g.members then g.next ws else g.state := by
  unfold Guard.after
  simp

/-- Settles O55: the bounds by KIND, and the write by the laws of what it sends. -/
theorem putWindowWritesTheSlot : Obligations.PutWindowWritesTheSlot := by
  rintro s r fs a h rfl
  intro x n lo hi old w v
  have hrefused {f : FieldId} (hf : w.badBound x.config = some f) :
      exec .putWindow s = .next (s.answered r (.detail .badValue f.code)) :=
    h.reports (putWindowRule_refused (s := s.setLink s.link.popIntake) hf)
  refine ⟨fun hk hlt => hrefused (f := .upper) ?_, fun hk hlo => hrefused (f := .lower) ?_,
    fun hk hlo hlo' hhi => hrefused (f := .upper) ?_, fun hlinear hrotary hok => ?_⟩
  · rw [Window.badBound_linear hk]
    exact if_pos hlt
  · rw [Window.badBound_rotary hk]
    exact if_pos (within_modulus_false.2 hlo)
  · rw [Window.badBound_rotary hk]
    refine (if_neg ?_).trans (if_pos (within_modulus_false.2 hhi))
    rw [Bool.not_eq_false]
    exact within_modulus.2 ⟨hlo, hlo'⟩
  · have hgood : w.badBound x.config = none := by
      cases hk : x.config.kind with
      | linear =>
        rw [Window.badBound_linear hk]
        exact if_neg (Int.not_lt.2 (hlinear hk))
      | rotary =>
        obtain ⟨h0lo, hlo, h0hi, hhi⟩ := hrotary hk
        rw [Window.badBound_rotary hk]
        refine (if_neg ?_).trans (if_neg ?_)
        · rw [Bool.not_eq_false]
          exact within_modulus.2 ⟨h0lo, hlo⟩
        · rw [Bool.not_eq_false]
          exact within_modulus.2 ⟨h0hi, hhi⟩
    obtain ⟨-, -, hw, hg⟩ := hok.stores
    refine ⟨Table.put n v old.windows, ?_, fun j hj => ?_, Table.wf_put n v _ hw, ?_⟩
    · exact (Table.find_put ..).trans (if_pos rfl)
    · exact (Table.find_put ..).trans (if_neg hj)
    intro after owned new was notices guardNotices stops released limits
    have hafter : Guard.after (Table.put n v old.windows) (fun g => g.members.contains n) = after :=
      funext (Guard.after_member _ n)
    have hnotices : windowNotices x.position old.windows (Table.put n v old.windows) = notices :=
      windowNotices_written hw x.position n v
    have hlimits : limitClaims (fun k u => decide (k = n) && decide (u.occupancy = .occupied))
        (Table.put n v old.windows) = limits := limitClaims_put hw n v
    have hexec : exec .putWindow s = .next ((s.putWindow n w).answered r
        (.ok [(.created, if Table.find n old.windows = none then 1 else 0), (.occupancy, (w.test x).code)])) := by
      refine congrArg Host.Outcome.next (h.executes (own := putWindowRule) ?_ (s.putWindow_link n w))
      rw [putWindowRule_writes (s := s.setLink s.link.popIntake) hgood, State.putWindow_setLink]
      rfl
    rw [hexec, State.putWindow_sends s n w hg, ← hnotices, ← hlimits]
    clear_value after
    subst hafter
    rfl

end Sys2Proof.Machine
end

section
namespace Sys2Proof.Machine

/-! ### PUT-GUARD -/

theorem Guard.passes_members {g : Guard} (h : 2 ≤ g.members.length ∧ g.members.length ≤ 4 ∧ g.members.Nodup) :
    ¬ (g.members.length < 2 ∨ 4 < g.members.length ∨ ¬ g.members.Nodup) := by
  rwa [not_or, not_or, not_lt, not_lt, not_not]

theorem Guard.passes_stopAxes {g : Guard} (h : 1 ≤ g.stopAxes.length ∧ g.stopAxes.length ≤ 4 ∧ g.stopAxes.Nodup) :
    ¬ (g.stopAxes.length < 1 ∨ 4 < g.stopAxes.length ∨ ¬ g.stopAxes.Nodup) := by
  rwa [not_or, not_or, not_lt, not_lt, not_not]

section
variable {ws : Table Window} {g : Guard}

/-- The list checks of PUT-GUARD in order (R140): members, then stop axes, then DEFINED members. -/
theorem Guard.refused_members (h : ¬ (2 ≤ g.members.length ∧ g.members.length ≤ 4 ∧ g.members.Nodup)) :
    g.refused ws = some (.detail .badValue FieldId.member.code) :=
  if_pos (by rwa [not_and_or, not_and_or, not_le, not_le] at h)

variable (hm : 2 ≤ g.members.length ∧ g.members.length ≤ 4 ∧ g.members.Nodup)
include hm

theorem Guard.refused_stopAxes (h : ¬ (1 ≤ g.stopAxes.length ∧ g.stopAxes.length ≤ 4 ∧ g.stopAxes.Nodup)) :
    g.refused ws = some (.detail .badValue FieldId.stopAxis.code) :=
  (if_neg (Guard.passes_members hm)).trans (if_pos (by rwa [not_and_or, not_and_or, not_le, not_le] at h))

variable (hs : 1 ≤ g.stopAxes.length ∧ g.stopAxes.length ≤ 4 ∧ g.stopAxes.Nodup)
include hs

theorem Guard.refused_undefined (h : ¬ ∀ k ∈ g.members, (Table.find k ws).isSome = true) :
    g.refused ws = some (.detail .noSuch FieldId.member.code) :=
  (if_neg (Guard.passes_members hm)).trans
    ((if_neg (Guard.passes_stopAxes hs)).trans (if_pos (Bool.eq_false_iff.2 (mt List.all_eq_true.1 h))))

theorem Guard.refused_none (h : ∀ k ∈ g.members, (Table.find k ws).isSome = true) : g.refused ws = none :=
  (if_neg (Guard.passes_members hm)).trans
    ((if_neg (Guard.passes_stopAxes hs)).trans (if_neg (by rw [Bool.not_eq_false]; exact List.all_eq_true.2 h)))

end

theorem putGuardRule_refused {fs : List Field} {s : State} {ans : Answer}
    (h : (guardOf fs s.monitor.guards).refused s.monitor.windows = some ans) : putGuardRule fs s = (ans, s) := by
  unfold putGuardRule
  dsimp only
  rw [h]

/-- The guard of a PUT-GUARD as it is written: evaluated at once (R141). -/
def guardWritten (fs : List Field) (m : WindowMonitor) : Guard :=
  { guardOf fs m.guards with state := (guardOf fs m.guards).next m.windows }

theorem putGuardRule_writes {fs : List Field} {s : State}
    (h : (guardOf fs s.monitor.guards).refused s.monitor.windows = none) :
    putGuardRule fs s =
      (.ok [(.created, if Table.find (fieldNat fs .guard) s.monitor.guards = none then 1 else 0),
          (.guardState, (guardWritten fs s.monitor).state.code)],
        s.putGuard (fieldNat fs .guard) (guardWritten fs s.monitor)) := by
  unfold putGuardRule
  dsimp only
  rw [h, flagValue_isNone]
  rfl

/-- PUT-GUARD leaves the Link Port out. -/
theorem State.putGuard_setLink (s : State) (l : LinkPort) (n : Nat) (g : Guard) :
    (s.setLink l).putGuard n g = (s.putGuard n g).setLink l := by
  unfold State.putGuard
  dsimp only
  rw [← State.sends_setLink, ← State.offers_setLink]
  rfl

theorem State.putGuard_link (s : State) (n : Nat) (g : Guard) : (s.putGuard n g).link = s.link := by
  unfold State.putGuard
  simp

theorem GuardState.ne_clear {st : GuardState} : st ≠ .clear ↔ st = .tripped := by
  cases st <;> simp

/-- The state a guard is written in: that of its evaluation from the state its slot held (R132, R141). -/
theorem guardWritten_state (fs : List Field) (m : WindowMonitor) :
    (guardWritten fs m).state =
      if guardStateAt m.guards (fieldNat fs .guard) = .clear then
        (if ∀ k ∈ (guardOf fs m.guards).members, occupancyAt m.windows k = .occupied then .tripped else .clear)
      else
        (if ∃ k ∈ (guardOf fs m.guards).members, occupancyAt m.windows k = .vacant then .clear else .tripped) := by
  show (guardOf fs m.guards).next m.windows = _
  by_cases h : guardStateAt m.guards (fieldNat fs .guard) = .clear
  · rw [if_pos h, Guard.next_clear h]
  · rw [if_neg h, Guard.next_tripped (GuardState.ne_clear.1 h)]

/-- The axes that get a stop claim when a guard is written: all its stop axes when it trips, the new ones when it stays
TRIPPED (R133, R141). -/
def Guard.stopped (old : Option Guard) (g : Guard) : List AxisId :=
  if g.state = .clear then []
  else
    match old with
    | none => g.stopAxes
    | some h => if h.state = .clear then g.stopAxes else g.stopAxes.filter (fun b => !h.stopAxes.contains b)

theorem stopClaims_written {gs : Table Guard} (hw : Table.wf gs) (n : Nat) (g : Guard) :
    stopClaims gs (Table.put n g gs) ++ addedStops gs n g =
      (g.stopped (Table.find n gs)).map (fun b => (b, .stop)) := by
  rw [stopClaims_put hw]
  unfold guardStateAt addedStops Guard.stopped
  cases hf : Table.find n gs with
  | none => cases hg : g.state <;> simp
  | some h => cases hg : g.state <;> cases hh : h.state <;> simp [hh]

/-- All that the write of a guard sends (R132 to R134, R141). -/
theorem State.putGuard_sends {s : State} (hw : Table.wf s.monitor.guards) (n : Nat) (g : Guard) :
    let new : WindowMonitor := { s.monitor with guards := Table.put n g s.monitor.guards }
    s.putGuard n g =
      ((s.setMonitor new).offers (if g.state = guardStateAt s.monitor.guards n then [] else [.guard n g.state])).sends
        ((g.stopped (Table.find n s.monitor.guards)).map (fun b => (b, .stop)) ++ releases s.monitor new) := by
  intro new
  rw [← guardNotices_put hw, ← stopClaims_written hw]
  rfl

/-- Settles O57: the checks in order, and the write by the laws of what it sends. -/
theorem putGuardWritesTheSlot : Obligations.PutGuardWritesTheSlot := by
  intro s r fs h n members stops ws old was ok1 ok2 ok3 will
  have hrefused {ans : Answer} (hf : (guardOf fs s.monitor.guards).refused ws = some ans) :
      exec .putGuard s = .next (s.answered r ans) :=
    h.reports (putGuardRule_refused (s := s.setLink s.link.popIntake) hf)
  refine ⟨fun h1 => hrefused (Guard.refused_members h1), fun h1 h2 => hrefused (Guard.refused_stopAxes h1 h2),
    fun h1 h2 h3 => hrefused (Guard.refused_undefined h1 h2 h3), fun h1 h2 h3 hok => ?_⟩
  obtain ⟨-, -, -, hw⟩ := hok.stores
  have hwill : (guardWritten fs s.monitor).state = will := guardWritten_state fs s.monitor
  have hguard : guardWritten fs s.monitor = ⟨members, stops, will⟩ := by rw [← hwill]; rfl
  have hexec : exec .putGuard s = .next ((s.putGuard n ⟨members, stops, will⟩).answered r
      (.ok [(.created, if old = none then 1 else 0), (.guardState, will.code)])) := by
    refine congrArg Host.Outcome.next (h.executes (own := putGuardRule) ?_ (s.putGuard_link n _))
    rw [putGuardRule_writes (s := s.setLink s.link.popIntake) (Guard.refused_none h1 h2 h3), State.putGuard_setLink,
      ← hguard, ← hwill]
    rfl
  refine ⟨Table.put n ⟨members, stops, will⟩ s.monitor.guards, ?_, fun j hj => ?_, Table.wf_put n _ _ hw, ?_⟩
  · exact (Table.find_put ..).trans (if_pos rfl)
  · exact (Table.find_put ..).trans (if_neg hj)
  · rw [hexec, State.putGuard_sends hw]
    rfl

end Sys2Proof.Machine
end

section
namespace Sys2Proof.Machine

/-! ### Markers -/

theorem saturate_eq (n : Nat) : saturate n = min 65535 (n + 1) := by
  unfold saturate Config.maxNumber
  split <;> omega

theorem Notice.isMarker_iff {n : Notice} : n.isMarker = true ↔ ∃ c, n.body = .discarded c := by
  unfold Notice.isMarker
  cases n.body <;> simp

theorem Notice.countDiscard_of_marker {n : Notice} {c : Nat} (h : n.body = .discarded c) :
    n.countDiscard = { n with body := .discarded (min 65535 (c + 1)) } := by
  unfold Notice.countDiscard
  rw [h, ← saturate_eq]

theorem Notice.countDiscard_of_ordinary {n : Notice} (h : n.isMarker = false) : n.countDiscard = n := by
  unfold Notice.countDiscard
  split
  · rename_i c hc
    rw [Notice.isMarker_iff.2 ⟨c, hc⟩] at h
    cases h
  · rfl

@[simp] theorem Notice.countDiscard_seq (n : Notice) : n.countDiscard.seq = n.seq := by
  unfold Notice.countDiscard
  split <;> rfl

@[simp] theorem Notice.countDiscard_sent (n : Notice) : n.countDiscard.sent = n.sent := by
  unfold Notice.countDiscard
  split <;> rfl

/-- A marker that counts stays a marker. -/
@[simp] theorem Notice.countDiscard_isMarker (n : Notice) : n.countDiscard.isMarker = n.isMarker := by
  cases h : n.isMarker with
  | false => rw [Notice.countDiscard_of_ordinary h, h]
  | true =>
    obtain ⟨c, hc⟩ := Notice.isMarker_iff.1 h
    rw [Notice.countDiscard_of_marker hc]
    rfl

/-! ### The three outcomes of an offer -/

theorem NoticeQueue.offer_joins {q : NoticeQueue} (h : q.ordinary < 31) (now : Time) (b : NoticeBody) :
    q.offer now b = q.join now b := if_pos h

theorem NoticeQueue.offer_marks {q : NoticeQueue} (h : 31 ≤ q.ordinary) (hm : ∀ e ∈ q.entries, e.isMarker = false)
    (now : Time) (b : NoticeBody) : q.offer now b = q.join now (.discarded 1) := by
  have hnone : ¬ q.entries.any (·.isMarker) = true := by simpa using hm
  exact (if_neg (Nat.not_lt.2 h)).trans (if_neg hnone)

theorem NoticeQueue.offer_counts {q : NoticeQueue} (h : 31 ≤ q.ordinary) (hm : ∃ e ∈ q.entries, e.isMarker = true)
    (now : Time) (b : NoticeBody) :
    q.offer now b = { q with entries := q.entries.map Notice.countDiscard } :=
  (if_neg (Nat.not_lt.2 h)).trans (if_pos (List.any_eq_true.2 hm))

theorem Notice.map_countDiscard_of_ordinary {es : List Notice} (h : ∀ e ∈ es, e.isMarker = false) :
    es.map Notice.countDiscard = es := by
  conv_rhs => rw [← List.map_id es]
  exact List.map_congr_left fun e he => Notice.countDiscard_of_ordinary (h e he)

/-- Settles O59: the three outcomes of an offer, one for each case of R158 and R159. -/
theorem offersJoinOrAreCounted : Obligations.OffersJoinOrAreCounted := by
  intro s b q next
  refine ⟨fun hroom => congrArg s.setNotices (NoticeQueue.offer_joins hroom ..),
    fun hfull hnone => congrArg s.setNotices (NoticeQueue.offer_marks hfull hnone ..),
    fun before m after c hfull hentries hbody hrest => congrArg s.setNotices ?_⟩
  obtain ⟨hbefore, hafter⟩ := List.forall_mem_append.1 hrest
  have hheld : m ∈ q.entries := hentries ▸ List.mem_append_right before List.mem_cons_self
  rw [NoticeQueue.offer_counts hfull ⟨m, hheld, Notice.isMarker_iff.2 ⟨c, hbody⟩⟩, hentries, List.map_append,
    List.map_cons, Notice.map_countDiscard_of_ordinary hbefore, Notice.map_countDiscard_of_ordinary hafter,
    Notice.countDiscard_of_marker hbody]

end Sys2Proof.Machine
end

section
namespace Sys2Proof.Machine

/-! ### ACK-NOTICES and RESEND-NOTICES -/

theorem NoticeQueue.holdsSent_iff {n : Nat} {q : NoticeQueue} :
    q.holdsSent n = true ↔ ∃ e ∈ q.entries, e.seq = n ∧ e.sent = true := by
  simp [NoticeQueue.holdsSent]

/-- The notices up to the first SENT one of the number. -/
theorem NoticeQueue.ackCount_eq {q : NoticeQueue} {older rest : List Notice} {m : Notice} {n : Nat}
    (h : q.entries = older ++ m :: rest) (hn : m.seq = n) (hm : m.sent = true) (ho : ∀ e ∈ older, e.seq ≠ n) :
    q.ackCount n = (older ++ [m]).length := by
  have hpast : older.findIdx (fun e => e.seq == n && e.sent) = older.length :=
    List.findIdx_eq_length.2 fun e he => by simp [ho e he]
  unfold NoticeQueue.ackCount
  rw [h, List.findIdx_append, hpast, if_neg (lt_irrefl _), List.findIdx_cons]
  simp [hn, hm]

theorem markerCount_of_ordinary {es : List Notice} (h : ∀ e ∈ es, e.isMarker = false) : markerCount es = none := by
  refine List.findSome?_eq_none_iff.2 fun e he => ?_
  split
  · rename_i c hc
    have := h e he
    rw [Notice.isMarker_iff.2 ⟨c, hc⟩] at this
    cases this
  · rfl

theorem markerCount_of_marker {before after : List Notice} {k : Notice} {c : Nat}
    (h : ∀ e ∈ before, e.isMarker = false) (hk : k.body = .discarded c) :
    markerCount (before ++ k :: after) = some c := by
  have hbefore : markerCount before = none := markerCount_of_ordinary h
  unfold markerCount at hbefore ⊢
  rw [List.findSome?_append, hbefore, List.findSome?_cons, hk]
  rfl

/-- ACK-NOTICES of a number that no SENT notice has (R162). -/
theorem ackNoticesRule_refuses {fs : List Field} {s : State}
    (h : ∀ e ∈ s.notices.entries, e.seq = fieldNat fs .seq → e.sent = false) :
    ackNoticesRule fs s = (.bare .noSuch, s) := by
  refine if_neg fun hheld => ?_
  obtain ⟨e, he, hseq, hsent⟩ := NoticeQueue.holdsSent_iff.1 hheld
  rw [h e he hseq] at hsent
  cases hsent

/-- ACK-NOTICES of a SENT notice: it and every older one go (R162). -/
theorem ackNoticesRule_removes {fs : List Field} {s : State} {older rest : List Notice} {m : Notice}
    (h : s.notices.entries = older ++ m :: rest) (hn : m.seq = fieldNat fs .seq) (hm : m.sent = true)
    (ho : ∀ e ∈ older, e.seq ≠ fieldNat fs .seq) :
    ackNoticesRule fs s =
      (.ok ([(.queued, (rest.length : Int)), (.removed, (older.length : Int) + 1)] ++
          optionalField .discarded ((markerCount (older ++ [m])).map Int.ofNat)),
        s.setNotices ⟨rest, s.notices.nextSeq⟩) := by
  have hheld : s.notices.holdsSent (fieldNat fs .seq) = true :=
    NoticeQueue.holdsSent_iff.2 ⟨m, h ▸ List.mem_append_right older List.mem_cons_self, hn, hm⟩
  have hsplit : s.notices.entries = (older ++ [m]) ++ rest := by rw [h, List.append_assoc]; rfl
  have hcount : s.notices.ackCount (fieldNat fs .seq) = (older ++ [m]).length :=
    NoticeQueue.ackCount_eq h hn hm ho
  unfold ackNoticesRule NoticeQueue.ack
  dsimp only
  rw [if_pos hheld, hcount, hsplit, List.take_left', List.drop_left']
  · simp
  · rfl
  · rfl

/-- Settles O60: ACK-NOTICES by where the number stands in the queue and whether the marker is among the notices that
go; RESEND-NOTICES by its rule. -/
theorem noticesAreAcknowledgedAndResent : Obligations.NoticesAreAcknowledgedAndResent := by
  refine ⟨fun s r fs h => ⟨fun hnone => ?_, fun older m rest hentries hn hm ho => ?_⟩, fun s r fs h => ?_⟩
  · exact congrArg Host.Outcome.next (h.executes (own := ackNoticesRule) (t := s) (ackNoticesRule_refuses hnone) rfl)
  · have hexec : exec .ackNotices s =
        .next ({ s with notices := ⟨rest, s.notices.nextSeq⟩ }.answered r
          (.ok ([((.queued : FieldId), (rest.length : Int)), (.removed, (older.length : Int) + 1)] ++
            optionalField .discarded ((markerCount (older ++ [m])).map Int.ofNat)))) :=
      congrArg Host.Outcome.next (h.executes (own := ackNoticesRule)
        (t := s.setNotices ⟨rest, s.notices.nextSeq⟩) (ackNoticesRule_removes hentries hn hm ho) rfl)
    refine ⟨fun hordinary => ?_, fun before k after c hgone hbody hbefore => ?_⟩
    · rw [markerCount_of_ordinary hordinary] at hexec
      exact hexec
    · rw [hgone, markerCount_of_marker hbefore hbody] at hexec
      exact hexec
  · exact congrArg Host.Outcome.next
      (h.executes (own := resendNoticesRule) (t := s.setNotices s.notices.unsend) rfl rfl)

end Sys2Proof.Machine
end

section
namespace Sys2Proof.Machine

/-! ### The Notice Queue within its bounds -/

theorem nextNumber_range {n : Nat} (h : 1 ≤ n ∧ n ≤ 65535) : 1 ≤ nextNumber n ∧ nextNumber n ≤ 65535 := by
  unfold nextNumber Config.maxNumber
  split <;> omega

/-- Numbers and markers are those of the queue before; SENT marks may have changed. -/
theorem NoticeQueue.Ok.marks {q : NoticeQueue} (h : q.Ok) {es : List Notice}
    (hseq : es.map (·.seq) = q.entries.map (·.seq)) (hmarker : es.map (·.isMarker) = q.entries.map (·.isMarker))
    (hsent : es.countP (·.sent) ≤ 8) (hold : es.Pairwise (fun e f => f.sent = true → e.sent = true)) :
    ({ q with entries := es } : NoticeQueue).Ok where
  ordinary := by
    have hcount := congrArg (List.countP (fun b => !b)) hmarker
    rw [List.countP_map, List.countP_map] at hcount
    exact hcount.trans_le h.ordinary
  markers := by
    have hcount := congrArg (List.countP id) hmarker
    rw [List.countP_map, List.countP_map] at hcount
    exact hcount.trans_le h.markers
  sent := hsent
  oldestSent := hold
  numbered := by
    have hchain : (q.entries.map (·.seq)).IsChain (fun m n => n = nextNumber m) := (List.isChain_map _).2 h.numbered
    exact (List.isChain_map _).1 (hseq ▸ hchain)
  lastNumber := by
    intro e he
    have hlast : e.seq ∈ (q.entries.map (·.seq)).getLast? := by
      rw [← hseq, List.getLast?_map]
      exact Option.mem_map_of_mem _ he
    rw [List.getLast?_map] at hlast
    obtain ⟨d, hd, hde⟩ := Option.mem_map.1 hlast
    exact hde ▸ h.lastNumber d hd
  numberRange := by
    intro e he
    have hnumber : e.seq ∈ q.entries.map (·.seq) := hseq ▸ List.mem_map_of_mem he
    obtain ⟨d, hd, hde⟩ := List.mem_map.1 hnumber
    exact hde ▸ h.numberRange d hd
  nextRange := h.nextRange

/-- A notice joins at the end, UNSENT, with the next number. -/
theorem NoticeQueue.Ok.join {q : NoticeQueue} (h : q.Ok) {now : Time} {b : NoticeBody}
    (hordinary : (q.join now b).ordinary ≤ 31) (hmarkers : (q.join now b).entries.countP (·.isMarker) ≤ 1) :
    (q.join now b).Ok where
  ordinary := hordinary
  markers := hmarkers
  sent := List.countP_append.trans_le h.sent
  oldestSent := List.pairwise_append.2 ⟨h.oldestSent, List.pairwise_singleton .., fun _ _ f hf => by
    rw [List.mem_singleton.1 hf]
    exact nofun⟩
  numbered := List.isChain_append.2 ⟨h.numbered, List.isChain_singleton _, fun e he f hf => by
    cases hf
    exact h.lastNumber e he⟩
  lastNumber := by
    intro e he
    rw [NoticeQueue.join, List.getLast?_concat] at he
    cases he
    rfl
  numberRange := List.forall_mem_append.2 ⟨h.numberRange, List.forall_mem_singleton.2 h.nextRange⟩
  nextRange := nextNumber_range h.nextRange

/-- A notice that is not the marker. -/
def NoticeBody.Ordinary (b : NoticeBody) : Prop := ∀ count, b ≠ .discarded count

theorem NoticeBody.Ordinary.isMarker {b : NoticeBody} (h : b.Ordinary) (seq : Nat) (now : Time) (sent : Bool) :
    (⟨seq, now, b, sent⟩ : Notice).isMarker = false :=
  Bool.eq_false_iff.2 fun hm => (Notice.isMarker_iff.1 hm).elim h

theorem NoticeQueue.join_ordinary (q : NoticeQueue) (now : Time) (b : NoticeBody) :
    (q.join now b).ordinary = q.ordinary + if (⟨q.nextSeq, now, b, false⟩ : Notice).isMarker then 0 else 1 := by
  refine List.countP_append.trans ?_
  rw [List.countP_singleton]
  cases (⟨q.nextSeq, now, b, false⟩ : Notice).isMarker <;> rfl

theorem NoticeQueue.join_markers (q : NoticeQueue) (now : Time) (b : NoticeBody) :
    (q.join now b).entries.countP (·.isMarker) =
      q.entries.countP (·.isMarker) + if (⟨q.nextSeq, now, b, false⟩ : Notice).isMarker then 1 else 0 := by
  refine List.countP_append.trans ?_
  rw [List.countP_singleton]

/-- An offer keeps the bounds: at most one marker is made, as only the queue itself makes one (R158, R159). -/
theorem NoticeQueue.Ok.offer {q : NoticeQueue} (h : q.Ok) (now : Time) {b : NoticeBody} (hb : b.Ordinary) :
    (q.offer now b).Ok := by
  rcases Nat.lt_or_ge q.ordinary 31 with hroom | hfull
  · rw [NoticeQueue.offer_joins hroom]
    refine h.join ?_ ?_
    · rw [NoticeQueue.join_ordinary, hb.isMarker]
      exact hroom
    · rw [NoticeQueue.join_markers, hb.isMarker]
      exact h.markers
  by_cases hm : ∃ e ∈ q.entries, e.isMarker = true
  · rw [NoticeQueue.offer_counts hfull hm]
    refine h.marks (by simp) (by simp) ?_ ?_
    · rw [List.countP_map]
      exact (congrArg (List.countP · q.entries) (funext Notice.countDiscard_sent)).trans_le h.sent
    · exact List.pairwise_map.2 (by simpa using h.oldestSent)
  · have hnone : ∀ e ∈ q.entries, e.isMarker = false := fun e he => Bool.eq_false_iff.2 fun hmark => hm ⟨e, he, hmark⟩
    rw [NoticeQueue.offer_marks hfull hnone]
    refine h.join ?_ ?_
    · rw [NoticeQueue.join_ordinary]
      exact h.ordinary
    · rw [NoticeQueue.join_markers, List.countP_eq_zero.2 (by simpa using hnone)]
      exact Nat.le_refl 1

theorem NoticeQueue.Ok.unsend {q : NoticeQueue} (h : q.Ok) : q.unsend.Ok := by
  have hunsent : ∀ e ∈ q.entries.map (fun n : Notice => { n with sent := false }), e.sent = false := by
    simp
  refine h.marks ?_ ?_ ?_ (List.pairwise_of_forall_mem_list fun e _ f hf hsent => ?_)
  · simp
  · rw [List.map_map]
    rfl
  · rw [List.countP_eq_zero.2 (by simp)]
    exact Nat.zero_le 8
  · rw [hunsent f hf] at hsent
    cases hsent

theorem NoticeQueue.Ok.ack {q : NoticeQueue} (h : q.Ok) (n : Nat) : (q.ack n).Ok where
  ordinary := ((List.drop_sublist ..).countP_le).trans h.ordinary
  markers := ((List.drop_sublist ..).countP_le).trans h.markers
  sent := ((List.drop_sublist ..).countP_le).trans h.sent
  oldestSent := h.oldestSent.sublist (List.drop_sublist ..)
  numbered := h.numbered.drop _
  lastNumber := fun e he => h.lastNumber e <| by
    rw [NoticeQueue.ack, List.getLast?_drop] at he
    split at he
    · cases he
    · exact he
  numberRange := fun e he => h.numberRange e (List.mem_of_mem_drop he)
  nextRange := h.nextRange

/-- The oldest UNSENT notice stands behind SENT ones. -/
theorem NoticeQueue.presented_eq_some_iff {q : NoticeQueue} {n : Notice} :
    q.presented = some n ↔ q.sentCount < 8 ∧ n.sent = false ∧
      ∃ sent rest, q.entries = sent ++ n :: rest ∧ ∀ e ∈ sent, e.sent = true := by
  unfold NoticeQueue.presented
  by_cases hw : q.sentCount < Config.sendWindow
  · rw [if_pos hw, List.find?_eq_some_iff_append]
    simp [hw]
  · rw [if_neg hw]
    simp [hw]

theorem sendOldest_append {sent rest : List Notice} {n : Notice} (hs : ∀ e ∈ sent, e.sent = true)
    (hn : n.sent = false) : sendOldest (sent ++ n :: rest) = sent ++ { n with sent := true } :: rest := by
  induction sent with
  | nil => exact if_neg (by simp [hn])
  | cons e es ih =>
    obtain ⟨he, hes⟩ := List.forall_mem_cons.1 hs
    exact (if_pos he).trans (congrArg (e :: ·) (ih hes))

theorem NoticeQueue.Ok.sendOldest {q : NoticeQueue} (h : q.Ok) {n : Notice} (hn : q.presented = some n) :
    ({ q with entries := Machine.sendOldest q.entries } : NoticeQueue).Ok := by
  obtain ⟨hwindow, hunsent, sent, rest, hentries, hsent⟩ := NoticeQueue.presented_eq_some_iff.1 hn
  unfold NoticeQueue.sentCount at hwindow
  have hold := h.oldestSent
  rw [hentries] at hwindow
  rw [hentries, List.pairwise_append, List.pairwise_cons] at hold
  obtain ⟨hpast, ⟨-, hrest⟩, -⟩ := hold
  rw [hentries, sendOldest_append hsent hunsent]
  refine h.marks ?_ ?_ ?_ ?_
  · simp [hentries]
  · rw [hentries, List.map_append, List.map_append]
    rfl
  · rw [List.countP_append, List.countP_cons_of_pos rfl]
    rw [List.countP_append, List.countP_cons_of_neg (by simp [hunsent])] at hwindow
    exact hwindow
  · refine List.pairwise_append.2 ⟨hpast, List.pairwise_cons.2 ⟨fun _ _ _ => rfl, hrest⟩, fun e he _ _ _ => hsent e he⟩

theorem NoticeQueue.reset_ok (c : Cause) : (NoticeQueue.reset c).Ok where
  ordinary := show 1 ≤ 31 by decide
  markers := Nat.zero_le 1
  sent := Nat.zero_le 8
  oldestSent := List.pairwise_singleton ..
  numbered := List.isChain_singleton _
  lastNumber := fun e he => by
    cases he
    rfl
  numberRange := List.forall_mem_singleton.2 ⟨Nat.le_refl 1, show 1 ≤ 65535 by decide⟩
  nextRange := show 1 ≤ 2 ∧ 2 ≤ 65535 by decide

end Sys2Proof.Machine
end

section
namespace Sys2Proof.Machine

/-! ### No block offers the marker -/

/-- Notices of which none is the marker: the blocks offer such notices alone. -/
structure AllOrdinary (bs : List NoticeBody) : Prop where
  each : ∀ b ∈ bs, b.Ordinary

theorem AllOrdinary.nil : AllOrdinary [] := ⟨List.forall_mem_nil _⟩

theorem AllOrdinary.one {b : NoticeBody} (h : b.Ordinary) : AllOrdinary [b] := ⟨List.forall_mem_singleton.2 h⟩

theorem AllOrdinary.append {bs cs : List NoticeBody} (h : AllOrdinary bs) (k : AllOrdinary cs) :
    AllOrdinary (bs ++ cs) := ⟨List.forall_mem_append.2 ⟨h.each, k.each⟩⟩

theorem AllOrdinary.flatMap {α : Type} {f : α → List NoticeBody} {l : List α} (h : ∀ e, AllOrdinary (f e)) :
    AllOrdinary (l.flatMap f) :=
  ⟨fun b hb => by
    obtain ⟨e, -, he⟩ := List.mem_flatMap.1 hb
    exact (h e).each b he⟩

theorem ActiveOrder.ordinary_report (a : AxisId) (z : Zone) (o : ActiveOrder) : AllOrdinary (o.report a z).2 := by
  unfold ActiveOrder.report
  split
  · exact .one nofun
  · exact .nil

/-! Ends of operations -/

theorem Axis.ordinary_endOrder (a : AxisId) (now : Time) (o : ActiveOrder) (why : Reason) (x : Axis) :
    AllOrdinary (x.endOrder a now o why).2 := .one nofun

theorem Axis.ordinary_failHoming (a : AxisId) (now : Time) (why : Reason) (x : Axis) :
    AllOrdinary (x.failHoming a now why).2 := .one nofun

theorem Axis.ordinary_endJog (a : AxisId) (now : Time) (why : Reason) (x : Axis) :
    AllOrdinary (x.endJog a now why).2 := .one nofun

theorem Axis.ordinary_endOperation (a : AxisId) (now : Time) (why : Reason) (x : Axis) :
    AllOrdinary (x.endOperation a now why).2 := by
  unfold Axis.endOperation
  cases x.motion with
  | moving o => exact x.ordinary_endOrder ..
  | homing r => exact x.ordinary_failHoming ..
  | jogging j => exact x.ordinary_endJog ..
  | idle | held | waiting | faulted => exact .nil

theorem Axis.ordinary_recordFault (a : AxisId) (now : Time) (k : FaultKind) (x : Axis) :
    AllOrdinary (x.recordFault a now k).2 := by
  unfold Axis.recordFault
  split
  · exact .one nofun
  split
  · exact .nil
  · exact .one nofun

theorem Axis.ordinary_stalls (a : AxisId) (now : Time) (x : Axis) : AllOrdinary (x.stalls a now).2 :=
  (Axis.ordinary_recordFault ..).append (Axis.ordinary_endOperation ..)

theorem Axis.ordinary_cancelled (a : AxisId) (os : List Order) (x : Axis) : AllOrdinary (x.cancelled a os) :=
  ⟨List.forall_mem_map.2 fun _ _ => nofun⟩

theorem Axis.ordinary_cancelTag (a : AxisId) (now : Time) (tag : Nat) (x : Axis) :
    AllOrdinary (x.cancelTag a now tag).2 := by
  unfold Axis.cancelTag
  split
  · split
    · exact .one nofun
    · exact x.ordinary_cancelled ..
  · exact x.ordinary_cancelled ..

theorem Axis.ordinary_cancelAll (a : AxisId) (now : Time) (x : Axis) : AllOrdinary (x.cancelAll a now).2 := by
  unfold Axis.cancelAll
  refine .append ?_ (Axis.ordinary_cancelled ..)
  cases x.motion with
  | moving o => exact x.ordinary_endOrder ..
  | idle | held | waiting | homing | jogging | faulted => exact .nil

theorem Axis.ordinary_halt (a : AxisId) (now : Time) (x : Axis) : AllOrdinary (x.halt a now).2 := by
  unfold Axis.halt
  split
  iterate 3 exact x.ordinary_endOperation ..
  all_goals exact .nil

theorem Axis.ordinary_stop (a : AxisId) (now : Time) (flush : Bool) (x : Axis) :
    AllOrdinary (x.stop a now flush).2 := by
  unfold Axis.stop
  refine (x.ordinary_halt a now).append ?_
  split
  · exact Axis.ordinary_cancelled ..
  · exact .nil

theorem Axis.ordinary_jogNone (a : AxisId) (now : Time) (x : Axis) : AllOrdinary (x.jogNone a now).2 := by
  unfold Axis.jogNone
  cases x.motion with
  | jogging j => exact x.ordinary_endJog ..
  | idle | held | waiting | moving | homing | faulted => exact .nil

theorem Axis.ordinary_capture (a : AxisId) (now : Time) (active : Bool) (x : Axis) :
    AllOrdinary (x.capture a now active).2 := by
  unfold Axis.capture
  generalize (if active = true then Edge.rise else Edge.fall) = e
  dsimp only
  split
  · split
    · exact .one nofun
    · exact .nil
  · exact .nil

/-! The approach engine -/

theorem Axis.ordinary_enterSettle (a : AxisId) (o : ActiveOrder) (x : Axis) : AllOrdinary (x.enterSettle a o).2 :=
  o.ordinary_report a .windowEntered

theorem Axis.ordinary_enterCoast (a : AxisId) (o : ActiveOrder) (x : Axis) : AllOrdinary (x.enterCoast a o).2 := by
  unfold Axis.enterCoast
  dsimp only
  split
  · exact o.ordinary_report ..
  · exact .nil

theorem Axis.ordinary_beginLeg (a : AxisId) (now : Time) (limited : Dir → Bool) (o : ActiveOrder) (d : Dir)
    (high : Bool) (sub : Substate) (x : Axis) : AllOrdinary (x.beginLeg a now limited o d high sub).2 := by
  unfold Axis.beginLeg
  split
  · exact x.ordinary_endOrder ..
  split
  · exact .nil
  · cases sub with
    | slow k => exact o.ordinary_report ..
    | takeup | fast | coast | settle | reversing => exact .nil

theorem Axis.ordinary_legStart (a : AxisId) (now : Time) (limited : Dir → Bool) (p : Int) (o : ActiveOrder)
    (x : Axis) : AllOrdinary (x.legStart a now limited p o).2 := by
  unfold Axis.legStart
  dsimp only
  split
  · exact x.ordinary_enterSettle ..
  · exact x.ordinary_beginLeg ..

theorem Axis.ordinary_cut (a : AxisId) (now : Time) (o : ActiveOrder) (x : Axis) : AllOrdinary (x.cut a now o).2 := by
  unfold Axis.cut
  refine (o.ordinary_report ..).append ?_
  split
  · exact Axis.ordinary_enterSettle ..
  · exact Axis.ordinary_enterCoast ..

theorem Axis.ordinary_slowMoved (a : AxisId) (now : Time) (k : LegKind) (o : ActiveOrder) (x : Axis) :
    AllOrdinary (x.slowMoved a now k o).2 := by
  unfold Axis.slowMoved
  cases k with
  | normal =>
    dsimp only
    split
    · exact x.ordinary_cut ..
    · exact .nil
  | short =>
    dsimp only
    split
    · exact Axis.ordinary_enterSettle ..
    · exact .nil

theorem Axis.ordinary_fastMoved (a : AxisId) (now : Time) (o : ActiveOrder) (x : Axis) :
    AllOrdinary (x.fastMoved a now o).2 := by
  unfold Axis.fastMoved
  split
  · exact (o.ordinary_report ..).append (Axis.ordinary_slowMoved ..)
  · exact .nil

theorem Axis.ordinary_takeupMoved (a : AxisId) (now : Time) (limited : Dir → Bool) (o : ActiveOrder) (x : Axis) :
    AllOrdinary (x.takeupMoved a now limited o).2 := by
  unfold Axis.takeupMoved
  split
  · exact Axis.ordinary_legStart ..
  split
  · exact .nil
  · exact .nil

theorem Axis.ordinary_coastMoved (a : AxisId) (o : ActiveOrder) (x : Axis) : AllOrdinary (x.coastMoved a o).2 := by
  unfold Axis.coastMoved
  split
  · exact x.ordinary_enterSettle ..
  split
  · exact o.ordinary_report ..
  · exact .nil

theorem Axis.ordinary_settleMoved (a : AxisId) (o : ActiveOrder) (x : Axis) : AllOrdinary (x.settleMoved a o).2 := by
  unfold Axis.settleMoved
  split
  · exact .nil
  · exact x.ordinary_enterCoast ..

theorem Axis.ordinary_positionMoved (a : AxisId) (now : Time) (limited : Dir → Bool) (dir : Dir) (x : Axis) :
    AllOrdinary (x.positionMoved a now limited dir).2 := by
  unfold Axis.positionMoved
  split
  · dsimp only
    split
    · exact x.ordinary_takeupMoved ..
    · exact x.ordinary_fastMoved ..
    · exact x.ordinary_slowMoved ..
    · exact x.ordinary_coastMoved ..
    · exact x.ordinary_settleMoved ..
    · exact .nil
  all_goals exact .nil

theorem Axis.ordinary_judgeRest (a : AxisId) (now : Time) (limited : Dir → Bool) (o : ActiveOrder) (x : Axis) :
    AllOrdinary (x.judgeRest a now limited o).2 := by
  unfold Axis.judgeRest
  split
  · exact .nil
  split
  · exact x.ordinary_legStart ..
  · exact x.ordinary_endOrder ..

theorem Axis.ordinary_lockoutExpired (a : AxisId) (now : Time) (limited : Dir → Bool) (x : Axis) :
    AllOrdinary (x.lockoutExpired a now limited).2 := by
  unfold Axis.lockoutExpired
  dsimp only
  split
  · split
    · exact Axis.ordinary_legStart ..
    all_goals exact .nil
  all_goals exact .nil

/-! Starts and claims -/

theorem Axis.ordinary_startOrder (a : AxisId) (now : Time) (p : Int) (o : Order) (rest : List Order) (r : Resolved)
    (x : Axis) : AllOrdinary (x.startOrder a now p o rest r).2 := by
  unfold Axis.startOrder
  refine .append ?_ (Axis.ordinary_legStart ..)
  split
  · exact .one nofun
  · exact .nil

theorem Axis.ordinary_takeStart (a : AxisId) (now : Time) (t : TableStore) (guarded : Bool) (limited : Dir → Bool)
    (x : Axis) : AllOrdinary (x.takeStart a now t guarded limited).2 := by
  unfold Axis.takeStart
  split
  · split
    · exact .nil
    · exact .one nofun
    · exact .nil
    · exact x.ordinary_startOrder ..
  · exact .nil

theorem Axis.ordinary_onOrder {f : ActiveOrder → Axis → Taken} (hf : ∀ o x, AllOrdinary (f o x).2) (x : Axis) :
    AllOrdinary (x.onOrder f).2 := by
  unfold Axis.onOrder
  cases x.motion with
  | moving o => exact hf o x
  | idle | held | waiting | homing | jogging | faulted => exact .nil

theorem Axis.ordinary_stopClaim (a : AxisId) (now : Time) (x : Axis) : AllOrdinary (x.stopClaim a now).2 := by
  unfold Axis.stopClaim Axis.takeStop
  split
  · split
    · exact Axis.ordinary_endOrder ..
    · exact Axis.ordinary_failHoming ..
    all_goals exact .nil
  · exact .nil

theorem Axis.ordinary_limitClaim (a : AxisId) (now : Time) (x : Axis) : AllOrdinary (x.limitClaim a now).2 := by
  unfold Axis.limitClaim Axis.takeLimit
  split
  · split
    · split
      · exact Axis.ordinary_endOrder ..
      · exact .nil
    · split
      · exact Axis.ordinary_endJog ..
      · exact .nil
    all_goals exact .nil
  · exact .nil

theorem Axis.ordinary_guardRelease (x : Axis) : AllOrdinary x.guardRelease.2 := by
  unfold Axis.guardRelease
  split <;> exact .nil

theorem Axis.ordinary_faultClaim (a : AxisId) (now : Time) (x : Axis) : AllOrdinary (x.faultClaim a now).2 := by
  unfold Axis.faultClaim
  split
  · exact .nil
  · exact Axis.ordinary_endOperation ..

/-! The Window Monitor and the Link Port -/

theorem ordinary_windowNotices (p : Option Int) (old new : Table Window) : AllOrdinary (windowNotices p old new) := by
  refine .flatMap fun e => ?_
  split
  · split
    · exact .one nofun
    · exact .nil
  · exact .nil

theorem ordinary_guardNotices (old new : Table Guard) : AllOrdinary (guardNotices old new) := by
  refine .flatMap fun e => ?_
  split
  · exact .nil
  · exact .one nofun

theorem State.ordinary_lossNotices (stopped : List AxisId) (s : State) (b : Block) :
    AllOrdinary (s.lossNotices stopped b) := by
  cases b with
  | axisController a => exact Axis.ordinary_endOperation ..
  | linkPort => exact .one nofun
  | windowMonitor | captureLog | orderStart => exact .nil

end Sys2Proof.Machine
end

section
namespace Sys2Proof.Machine

/-! ### The Notice Queue through the shared operations -/

/-- The Notice Queue of a state is within its bounds. -/
abbrev State.QueueOk (s : State) : Prop := s.notices.Ok

theorem State.QueueOk.offers {s : State} (h : s.QueueOk) {bs : List NoticeBody} (hb : AllOrdinary bs) :
    (s.offers bs).QueueOk := by
  obtain ⟨hb⟩ := hb
  induction bs generalizing s with
  | nil => exact h
  | cons b bs ih =>
    obtain ⟨hfirst, hrest⟩ := List.forall_mem_cons.1 hb
    exact ih (s := s.offer b) (NoticeQueue.Ok.offer h s.timebase hfirst) hrest

theorem State.QueueOk.take {s : State} (h : s.QueueOk) {a : AxisId} {f : Axis → Taken}
    (hf : AllOrdinary (f (s.axis a)).2) : (s.take a f).QueueOk := State.QueueOk.offers (s := s.setAxis a _) h hf

theorem State.QueueOk.setMonitor {s : State} (h : s.QueueOk) (w : WindowMonitor) : (s.setMonitor w).QueueOk := h

theorem State.QueueOk.sends {s : State} (h : s.QueueOk) (cs : List (AxisId × Claim)) : (s.sends cs).QueueOk := by
  unfold State.QueueOk
  rwa [State.sends_notices]

theorem State.QueueOk.monitorTakes {s : State} (h : s.QueueOk) (p : Option Int) (ws : Table Window)
    (pick : Guard → Bool) (limits : Nat → Window → Bool) : (s.monitorTakes p ws pick limits).QueueOk :=
  ((h.setMonitor _).offers ((ordinary_windowNotices ..).append (ordinary_guardNotices ..))).sends _

theorem State.QueueOk.windowsOf {s : State} (h : s.QueueOk) (a : AxisId) : (s.windowsOf a).QueueOk :=
  h.monitorTakes ..

theorem State.QueueOk.loseReference {s : State} (h : s.QueueOk) (a : AxisId) : (s.loseReference a).QueueOk := by
  unfold State.loseReference
  split
  · exact h
  · exact State.QueueOk.windowsOf (s := s.modifyAxis a _) h a

theorem State.QueueOk.raise {s : State} (h : s.QueueOk) (a : AxisId) (k : FaultKind) : (s.raise a k).QueueOk :=
  State.QueueOk.loseReference (h.take (Axis.ordinary_recordFault ..)) a

theorem State.QueueOk.raiseLine {s : State} (h : s.QueueOk) (a : AxisId) : (s.raiseLine a).QueueOk :=
  State.QueueOk.raise (s := s.modifyAxis a _) h a .line

theorem State.QueueOk.dropGained {s : State} (h : s.QueueOk) (a : AxisId) : (s.dropGained a).QueueOk := by
  unfold State.dropGained
  split
  iterate 3 exact h.loseReference a
  all_goals exact h

theorem State.QueueOk.indexCheck {s : State} (h : s.QueueOk) (a : AxisId) : (s.indexCheck a).QueueOk := by
  unfold State.indexCheck
  dsimp only
  split
  · exact h
  split
  · exact h
  split
  · exact h
  · exact h.raise a .slip

theorem State.QueueOk.controllerMoves {s : State} (h : s.QueueOk) (a : AxisId) (d : Dir) :
    (s.controllerMoves a d).QueueOk := h.take (Axis.ordinary_positionMoved ..)

theorem State.QueueOk.countEdge {s : State} (h : s.QueueOk) (a : AxisId) (l : EncoderLevels) (order : List Block) :
    (s.countEdge a l order).QueueOk := by
  have hcounted : ∀ x, (s.setAxis a x).QueueOk := fun _ => h
  unfold State.countEdge
  dsimp only
  split
  · exact h
  split
  · exact h
  split
  · exact (hcounted _).raise a .overrange
  split
  · exact ((hcounted _).controllerMoves a _).windowsOf a
  · exact ((hcounted _).windowsOf a).controllerMoves a _

/-! ### Blocks that take an event one after another -/

theorem State.QueueOk.foldl {f : State → Block → State} (hf : ∀ s b, State.QueueOk s → (f s b).QueueOk)
    (bs : List Block) {s : State} (h : s.QueueOk) : (bs.foldl f s).QueueOk := by
  induction bs generalizing s with
  | nil => exact h
  | cons b bs ih => exact ih (hf s b h)

theorem State.QueueOk.startHead {s : State} (h : s.QueueOk) (a : AxisId) : (s.startHead a).QueueOk :=
  h.take (Axis.ordinary_takeStart ..)

theorem State.QueueOk.logSense {s : State} (h : s.QueueOk) (a : AxisId) (active : Bool) :
    (s.logSense a active).QueueOk := h.take (Axis.ordinary_capture ..)

theorem State.QueueOk.homingGoes {s : State} (h : s.QueueOk) (a : AxisId) (r : Homing) :
    (s.take a (Axis.homingGoes s.timebase r)).QueueOk := h.take .nil

theorem State.QueueOk.referenceAct {s : State} (h : s.QueueOk) (a : AxisId) (datum : Int) (b : Block) :
    (s.referenceAct a datum b).QueueOk := by
  cases b with
  | axisController => exact h.take (.one nofun)
  | windowMonitor => exact h.windowsOf a
  | captureLog => exact h.logSense a false
  | linkPort => exact h
  | orderStart => exact h.startHead a

theorem State.QueueOk.referenceEvent {s : State} (h : s.QueueOk) (a : AxisId) (datum : Int) (sense : Bool)
    (order : List Block) : (s.referenceEvent a datum sense order).QueueOk :=
  State.QueueOk.foldl (fun _ b hu => hu.referenceAct a datum b) _ (s := s.modifyAxis a _) h

theorem State.QueueOk.homingSense {s : State} (h : s.QueueOk) (a : AxisId) (r : Homing) (active : Bool)
    (order : List Block) : (s.homingSense a r active order).QueueOk := by
  unfold State.homingSense
  dsimp only
  split
  · exact h.referenceEvent ..
  · exact (h.homingGoes a _).logSense a active

theorem State.QueueOk.homingMark {s : State} (h : s.QueueOk) (a : AxisId) (dir : Option Dir) (order : List Block) :
    (s.homingMark a dir order).QueueOk := by
  unfold State.homingMark
  split
  · split
    · split
      · exact h.referenceEvent ..
      · exact h
    all_goals exact h
  all_goals exact h

theorem State.QueueOk.linkLoss {s : State} (h : s.QueueOk) (order : List Block) : (s.linkLoss order).QueueOk := by
  refine State.QueueOk.foldl (fun u b hu => ?_) _ (NoticeQueue.Ok.unsend h)
  show (u.lossAt s.moving b).notices.Ok
  rw [State.lossAt_notices]
  exact hu.offers (u.ordinary_lossNotices s.moving b)

/-! ### Requests -/

/-- The execution of a request keeps what its rule keeps. -/
theorem State.QueueOk.execute {s : State} (h : s.QueueOk) (c : ReqCode) {own : List Field → State → Answer × State}
    (ho : ∀ fs u, State.QueueOk u → (own fs u).2.QueueOk) : (s.execute c own).QueueOk := by
  unfold State.execute
  split
  · exact h
  unfold State.serve
  split
  · exact h
  · exact ho _ (s.setLink s.link.popIntake) h

theorem closeRule_queueOk (fs : List Field) {s : State} (h : s.QueueOk) : (closeRule fs s).2.QueueOk := by
  unfold closeRule
  split
  · exact h
  · exact NoticeQueue.Ok.unsend h

theorem ackNoticesRule_queueOk (fs : List Field) {s : State} (h : s.QueueOk) : (ackNoticesRule fs s).2.QueueOk := by
  unfold ackNoticesRule
  dsimp only
  split
  · exact NoticeQueue.Ok.ack h _
  · exact h

theorem homeRule_queueOk (fs : List Field) {s : State} (h : s.QueueOk) : (homeRule fs s).2.QueueOk := by
  unfold homeRule
  dsimp only
  split
  · exact h
  split
  · exact h
  split
  · exact h
  split
  · exact h
  · exact (h.homingGoes _ _).loseReference _

theorem State.QueueOk.configure {s : State} (h : s.QueueOk) (a : AxisId) (c : AxisConfig) :
    (s.configure a c).QueueOk := by
  have hdrop : (if (s.axis a).config.dropsReference c then (s.modifyAxis a (Axis.configure c)).loseReference a
      else s.modifyAxis a (Axis.configure c)).QueueOk := by
    split
    · exact State.QueueOk.loseReference (s := s.modifyAxis a _) h a
    · exact h
  unfold State.configure
  dsimp only
  split
  · exact hdrop.raiseLine a
  · exact hdrop

theorem setAxisRule_queueOk (fs : List Field) {s : State} (h : s.QueueOk) : (setAxisRule fs s).2.QueueOk := by
  unfold setAxisRule
  dsimp only
  split
  · exact h.configure ..
  · exact h

theorem teachRule_queueOk (fs : List Field) {s : State} (h : s.QueueOk) : (teachRule fs s).2.QueueOk := by
  unfold teachRule
  dsimp only
  split
  · exact h
  split
  · exact h
  split
  · exact h
  · exact State.QueueOk.windowsOf (s := s.modifyAxis _ _) h _

theorem shiftRule_queueOk (fs : List Field) {s : State} (h : s.QueueOk) : (shiftRule fs s).2.QueueOk := by
  unfold shiftRule
  dsimp only
  split
  · exact h
  split
  · exact h
  split
  · exact h
  · unfold State.shift
    dsimp only
    split
    · exact State.QueueOk.windowsOf (s := s.setAxis _ _) h _
    · exact h

theorem cancelRule_queueOk (fs : List Field) {s : State} (h : s.QueueOk) : (cancelRule fs s).2.QueueOk := by
  unfold cancelRule
  dsimp only
  split
  · exact h.take (Axis.ordinary_cancelAll ..)
  split
  · exact h.take (Axis.ordinary_cancelTag ..)
  · exact h

theorem State.QueueOk.jog {s : State} (h : s.QueueOk) (a : AxisId) (dir : Option Dir) (sp : Speed) (n : Nat) :
    (s.jog a dir sp n).QueueOk := by
  cases dir with
  | none => exact h.take (Axis.ordinary_jogNone ..)
  | some d => exact h

theorem jogRule_queueOk (fs : List Field) {s : State} (h : s.QueueOk) : (jogRule fs s).2.QueueOk := by
  unfold jogRule
  dsimp only
  split
  · exact h
  split
  · exact h
  split
  · exact h
  split
  · exact h
  · exact h.jog ..

theorem putWindowRule_queueOk (fs : List Field) {s : State} (h : s.QueueOk) : (putWindowRule fs s).2.QueueOk := by
  unfold putWindowRule
  dsimp only
  split
  · exact h
  · exact (h.setMonitor _).monitorTakes ..

theorem putGuardRule_queueOk (fs : List Field) {s : State} (h : s.QueueOk) : (putGuardRule fs s).2.QueueOk := by
  unfold putGuardRule
  dsimp only
  split
  · exact h
  · exact ((h.setMonitor _).offers (ordinary_guardNotices ..)).sends _

theorem dropGuardRule_queueOk (fs : List Field) {s : State} (h : s.QueueOk) : (dropGuardRule fs s).2.QueueOk := by
  unfold dropGuardRule
  dsimp only
  split
  · exact h
  · exact (h.setMonitor _).sends _

/-- A request whose rule leaves the Notice Queue alone. -/
theorem State.QueueOk.execute_same {s : State} (h : s.QueueOk) (c : ReqCode)
    {own : List Field → State → Answer × State} (ho : ∀ fs u, (own fs u).2.notices = u.notices) :
    (s.execute c own).QueueOk :=
  h.execute c fun fs u hu => by
    unfold State.QueueOk
    rwa [ho fs u]

theorem State.QueueOk.senseChange {s : State} (h : s.QueueOk) (a : AxisId) (high : Bool) (order : List Block) :
    (s.senseChange a high order).QueueOk := by
  have hlevel : (s.modifyAxis a (Axis.senseLevel high)).QueueOk := h
  have hhome : ((s.modifyAxis a (Axis.senseLevel high)).homeAtEdge order).QueueOk := by
    unfold State.homeAtEdge
    split
    · exact hlevel.execute _ fun fs _ hu => homeRule_queueOk fs hu
    · exact hlevel
  unfold State.senseChange
  dsimp only
  split
  · exact hlevel.homingSense ..
  all_goals exact hhome.logSense a _

/-! ### Commands -/

theorem State.queueOk_resetTo (s : State) (c : Cause) (st : Straps) (held : Bool) : (s.resetTo c st held).QueueOk :=
  NoticeQueue.reset_ok c

/-- An expiry keeps what its effect keeps. -/
theorem State.QueueOk.expire {s : State} (h : s.QueueOk) {f : State → State}
    (hf : ∀ u, State.QueueOk u → (f u).QueueOk) (t : Option Timer) (late : Nat) : (s.expire t late f).QueueOk := by
  rcases s.expire_cases t late f with e | ⟨u, -, -, e⟩
  · rw [e]
    exact h
  · rw [e]
    exact hf (s.runTo u late) h

/-- A timer of an axis whose expiry its Axis Controller takes. -/
theorem State.QueueOk.expire_take {s : State} (h : s.QueueOk) {a : AxisId} {f : State → Axis → Taken}
    (hf : ∀ u x, AllOrdinary (f u x).2) (t : Option Timer) (late : Nat) :
    (s.expire t late (fun u => u.take a (f u))).QueueOk :=
  h.expire (fun u hu => hu.take (hf u _)) t late

theorem State.QueueOk.lineConditionArises {s : State} (h : s.QueueOk) (a : AxisId) :
    (s.lineConditionArises a).QueueOk := by
  unfold State.lineConditionArises
  dsimp only
  split
  · exact State.QueueOk.raiseLine (s := s.modifyAxis a _) h a
  · exact h

theorem State.QueueOk.frameEnds {s : State} (h : s.QueueOk) (st : Straps) : (s.frameEnds st).QueueOk := by
  unfold State.frameEnds
  split
  · exact s.queueOk_resetTo ..
  all_goals exact h

theorem State.QueueOk.restartAfterLoss {s : State} (h : s.QueueOk) (st : Straps) : (s.restartAfterLoss st).QueueOk := by
  unfold State.restartAfterLoss
  split
  · exact s.queueOk_resetTo ..
  all_goals exact h

/-- The notice that a frame takes is the one presented. -/
theorem State.presented_of_noticeToSend {s : State} {n : Notice} (h : s.noticeToSend = some n) :
    s.notices.presented = some n := by
  unfold State.noticeToSend at h
  split at h
  · exact h
  · cases h

/-- Every command keeps the Notice Queue within its bounds. -/
theorem exec_queueOk (i : Instr) {s t : State} (h : s.QueueOk) (e : exec i s = .next t) : t.QueueOk := by
  cases i <;> simp only [Machine.exec] at e <;> cases e
  case closeSession => exact h.execute _ fun fs _ hu => closeRule_queueOk fs hu
  case setAxis => exact h.execute _ fun fs _ hu => setAxisRule_queueOk fs hu
  case home => exact h.execute _ fun fs _ hu => homeRule_queueOk fs hu
  case teach => exact h.execute _ fun fs _ hu => teachRule_queueOk fs hu
  case shift => exact h.execute _ fun fs _ hu => shiftRule_queueOk fs hu
  case cancel => exact h.execute _ fun fs _ hu => cancelRule_queueOk fs hu
  case stop => exact h.execute _ fun _ _ hu => hu.take (Axis.ordinary_stop ..)
  case jog => exact h.execute _ fun fs _ hu => jogRule_queueOk fs hu
  case putWindow => exact h.execute _ fun fs _ hu => putWindowRule_queueOk fs hu
  case putGuard => exact h.execute _ fun fs _ hu => putGuardRule_queueOk fs hu
  case dropGuard => exact h.execute _ fun fs _ hu => dropGuardRule_queueOk fs hu
  case ackNotices => exact h.execute _ fun fs _ hu => ackNoticesRule_queueOk fs hu
  case resendNotices => exact h.execute _ fun _ _ hu => NoticeQueue.Ok.unsend hu
  case ping | identify | restart | getAxis | axisStatus | listStations | release | listOrders | setCapture |
      readCaptures =>
    exact h.execute_same _ fun _ _ => rfl
  case openSession | linkStatus | clearFault | putStation | dropStation | getStation | putProfile | getProfile |
      dropProfile | enqueue | hold | dropWindow | getWindow | getGuard | setOutputs =>
    refine h.execute_same _ fun fs u => ?_
    dsimp only [openRule, linkStatusRule, clearFaultRule, putStationRule, dropStationRule, getStationRule,
      putProfileRule, getProfileRule, dropProfileRule, enqueueRule, holdRule, dropWindowRule, getWindowRule,
      getGuardRule, setOutputsRule]
    repeat' split
    all_goals rfl
  case frameGapExpiry =>
    refine h.expire (fun u hu => ?_) _ _
    exact hu
  case frameEnd moment => exact h.expire (fun _ hu => hu.frameEnds moment.straps) _ _
  case keepaliveExpiry order moment =>
    refine h.expire (fun u hu => ?_) _ _
    split
    · exact hu
    · exact (hu.linkLoss order).restartAfterLoss moment.straps
  case reset => exact s.queueOk_resetTo ..
  case countEdge a levels order => exact h.countEdge a levels order
  case indexMark a edge order =>
    have hedge : (s.sameInstantEdge a edge order).QueueOk := by
      cases edge with
      | none => exact h
      | some levels => exact h.countEdge a levels order
    exact (hedge.indexCheck a).homingMark a _ order
  case senseEdge a high order =>
    split
    · exact h
    · exact h.senseChange a high order
  case lineTimerExpiry a _ => exact h.expire (fun _ hu => hu.lineConditionArises a) _ _
  case stallTimerExpiry => exact h.expire_take (fun _ _ => Axis.ordinary_stalls ..) _ _
  case homingLimitExpiry => exact h.expire_take (fun _ _ => Axis.ordinary_failHoming ..) _ _
  case settleTimerExpiry | moveLimitExpiry =>
    exact h.expire_take (fun _ x => x.ordinary_onOrder fun _ _ => Axis.ordinary_endOrder ..) _ _
  case restTimerExpiry => exact h.expire_take (fun _ x => x.ordinary_onOrder fun _ _ => Axis.ordinary_judgeRest ..) _ _
  case lockoutTimerExpiry => exact h.expire_take (fun _ _ => Axis.ordinary_lockoutExpired ..) _ _
  case deadmanExpiry => exact h.expire_take (fun _ _ => Axis.ordinary_endJog ..) _ _
  case orderStart a => exact h.startHead a
  case stopClaim => exact h.take (Axis.ordinary_stopClaim ..)
  case limitClaim => exact h.take (Axis.ordinary_limitClaim ..)
  case guardRelease => exact h.take (Axis.ordinary_guardRelease _)
  case faultClaim a => exact (h.dropGained a).take (Axis.ordinary_faultClaim ..)
  case noticeFrameStart =>
    split
    · exact h
    · rename_i n hn
      exact NoticeQueue.Ok.sendOldest h (State.presented_of_noticeToSend hn)
  case retryFromCache | frameReceived | replyFrameStart | linePairChange | byteReceived => exact h
  case unknownRequestCode =>
    unfold State.executeUnknown
    split <;> exact h

/-- Settles O8: a step runs a command, which keeps the Notice Queue within its bounds (`exec_queueOk`), or lets time
pass, which the queue does not see. -/
theorem stepsKeepTheNoticeQueue : Obligations.StepsKeepTheNoticeQueue := by
  intro s t h e
  unfold step at e
  split at e
  · rename_i rest _
    exact exec_queueOk _ (s := s.withPending rest) h e
  · split at e
    · exact exec_queueOk _ h e
    · cases e
      exact h

end Sys2Proof.Machine
end

section
namespace Sys2Proof.Machine

/-! ### Fields on the line -/

/-- The lowest n bytes of a number in two's complement, low byte first (R195). -/
def lineBytes (n : Nat) (v : Int) : List Byte := (List.range n).map (fun i => BitVec.ofInt 8 (v / 256 ^ i))

theorem lineBytes_succ (n : Nat) (v : Int) : lineBytes (n + 1) v = BitVec.ofInt 8 v :: lineBytes n (v / 256) := by
  unfold lineBytes
  rw [List.range_succ_eq_map, List.map_cons, List.map_map, pow_zero, Int.ediv_one]
  refine congrArg (_ :: ·) (List.map_congr_left fun i _ => ?_)
  show BitVec.ofInt 8 (v / 256 ^ (i + 1)) = BitVec.ofInt 8 (v / 256 / 256 ^ i)
  rw [pow_succ', Int.ediv_ediv_of_nonneg (by decide)]

/-- The lowest n bytes are those of any integer congruent modulo 256 to the n. -/
theorem bytesOf_eq {n k : Nat} {v : Int} (h : Int.ModEq (256 ^ n) k v) : bytesOf n k = lineBytes n v := by
  induction n generalizing k v with
  | zero => rfl
  | succ n ih =>
    obtain ⟨c, hc⟩ := Int.modEq_iff_dvd.1 h
    have hv : v = k + 256 * (256 ^ n * c) := by
      rw [← mul_assoc, ← pow_succ', ← hc]
      exact (add_sub_cancel _ _).symm
    have hlow : BitVec.ofInt 8 v = BitVec.ofNat 8 k := by
      rw [hv]
      refine BitVec.eq_of_toNat_eq ?_
      rw [BitVec.toNat_ofInt, BitVec.toNat_ofNat]
      omega
    have hhigh : Int.ModEq (256 ^ n) (k / 256 : Nat) (v / 256) := by
      rw [hv, Int.add_mul_ediv_left _ _ (by decide), Int.modEq_iff_dvd]
      exact ⟨c, by simp⟩
    rw [lineBytes_succ, hlow, ← ih hhigh]
    rfl

theorem bytesOf_natCast (n k : Nat) : bytesOf n k = lineBytes n k := bytesOf_eq (Int.ModEq.refl _)

/-- A field on the line: its id, its length, its value (R194, R195). -/
def lineField (id size : Nat) (v : Int) : List Byte :=
  BitVec.ofNat 8 id :: BitVec.ofNat 8 size :: lineBytes size v

theorem encodeField_eq (e : Field) : encodeField e = lineField e.1.code e.1.size e.2 := by
  refine congrArg (BitVec.ofNat 8 e.1.code :: BitVec.ofNat 8 e.1.size :: ·) (bytesOf_eq ?_)
  rw [BitVec.toNat_ofInt, Int.toNat_of_nonneg (Int.emod_nonneg _ (by positivity)), pow_mul]
  exact Int.mod_modEq ..

theorem Reply.frameBody_eq (p : Reply) :
    p.frameBody =
      3 :: p.tag :: BitVec.ofNat 8 p.answer.result.code ::
        p.answer.fields.flatMap (fun e => lineField e.1.code e.1.size e.2) := by
  unfold Reply.frameBody
  rw [funext encodeField_eq]

/-- A field as table 9-2 gives it: id, length and value. -/
def Field.onLine (e : Field) : Nat × Nat × Int := (e.1.code, e.1.size, e.2)

/-- The body of a notice of a kind code with the given fields in increasing id (tables 11-3 and 9-2). -/
theorem Notice.frameBody_eq {n : Notice} {kind : Nat} {row : List (Nat × Nat × Int)} (hk : n.body.code = kind)
    (hr : (inIdOrder n.body.fields).map Field.onLine = row) :
    n.frameBody =
      4 :: lineBytes 2 n.seq ++ lineBytes 4 n.time.toNat ++ BitVec.ofNat 8 kind ::
        row.flatMap (fun e => lineField e.1 e.2.1 e.2.2) := by
  unfold Notice.frameBody
  rw [bytesOf_natCast, bytesOf_natCast, funext encodeField_eq, hk, ← hr, List.flatMap_map]
  rfl

/-! ### Fields in increasing id -/

theorem inIdOrder_perm (fs : List Field) : (inIdOrder fs).Perm fs := List.perm_insertionSort ..

theorem inIdOrder_sorted (fs : List Field) : (inIdOrder fs).Pairwise (fun e f => e.1.code ≤ f.1.code) := by
  have htotal : Std.Total (fun e f : Field => e.1.code ≤ f.1.code) := ⟨fun _ _ => Nat.le_total ..⟩
  have htrans : IsTrans Field (fun e f => e.1.code ≤ f.1.code) := ⟨fun _ _ _ => Nat.le_trans⟩
  exact List.pairwise_insertionSort ..

/-- Fields that stand in increasing id stay as they are. -/
theorem inIdOrder_of_sorted {fs : List Field} (h : fs.Pairwise (fun e f => e.1.code ≤ f.1.code)) :
    inIdOrder fs = fs := h.insertionSort_eq

/-- The occurrences of one field keep their order (R196). -/
theorem inIdOrder_filter (fs : List Field) (f : FieldId) :
    (inIdOrder fs).filter (fun e => e.1 == f) = fs.filter (fun e => e.1 == f) := by
  have hone : (fs.filter (fun e => e.1 == f)).Pairwise (fun e g => e.1.code ≤ g.1.code) := by
    refine List.pairwise_of_forall_mem_list fun e he g hg => ?_
    rw [eq_of_beq (List.mem_filter.1 he).2, eq_of_beq (List.mem_filter.1 hg).2]
  have hkept : (fs.filter (fun e => e.1 == f)).Sublist ((inIdOrder fs).filter (fun e => e.1 == f)) := by
    have htwice := (List.sublist_insertionSort hone List.filter_sublist).filter (fun e => e.1 == f)
    simp only [List.filter_filter, Bool.and_self] at htwice
    exact htwice
  exact (hkept.eq_of_length ((inIdOrder_perm fs).filter _).length_eq.symm).symm

/-- LINK-LOST carries the stopped axes in front of the time of the loss (table 9-2). -/
theorem linkLost_onLine (stopped : List AxisId) (now : Time) :
    (inIdOrder (NoticeBody.linkLost stopped now).fields).map Field.onLine =
      stopped.map (fun a => (154, 1, (a.num : Int))) ++ [(155, 4, (now.toNat : Int))] := by
  have hstopped : ∀ e ∈ stopped.map (fun a => ((.stoppedAxis, (a.num : Int)) : Field)), e.1.code = 154 :=
    List.forall_mem_map.2 fun _ _ => rfl
  have hsorted : inIdOrder (NoticeBody.linkLost stopped now).fields = (NoticeBody.linkLost stopped now).fields := by
    refine inIdOrder_of_sorted (List.pairwise_append.2 ⟨?_, List.pairwise_singleton .., fun e he f hf => ?_⟩)
    · exact List.pairwise_of_forall_mem_list fun e he f hf => by rw [hstopped e he, hstopped f hf]
    · rw [hstopped e he, List.mem_singleton.1 hf]
      exact Nat.le_succ 154
  rw [hsorted, NoticeBody.fields, List.map_append, List.map_map]
  rfl

/-- ORDER-DONE carries POSITION, where there is one, behind AXIS; OUTCOME is 0 for reason NONE (table 9-2). -/
theorem orderDone_onLine (a : AxisId) (tag : Nat) (why : Reason) (p : Option Int) (used : Nat) :
    (inIdOrder (NoticeBody.orderDone a tag why p used).fields).map Field.onLine =
      [(1, 1, (a.num : Int))] ++ (optionalField .position p).map Field.onLine ++
        [(96, 2, (tag : Int)), (109, 1, (used : Int)), (110, 1, if why = .none then 0 else 1),
          (111, 1, (why.code : Int))] := by
  have houtcome : (why.outcome : Int) = if why = .none then 0 else 1 := by
    unfold Reason.outcome
    split <;> rfl
  rw [← houtcome]
  cases p <;> rfl

/-! ### Frames begin -/

theorem RestartPhase.replyBegins_eq (left : List Reply) (p : RestartPhase) :
    p.replyBegins left = if p = .replyWaiting ∧ left = [] then .replySending else p := by
  cases p <;> simp [RestartPhase.replyBegins]

theorem LinkPort.beginReply_eq {l : LinkPort} {p : Reply} {rest : List Reply} (ht : l.transmitter = none)
    (hr : l.replies = p :: rest) :
    l.beginReply =
      { l with
        replies := rest
        transmitter := some (TxFrame.of l.rate p.frameBody)
        restart := if l.restart = .replyWaiting ∧ rest = [] then .replySending else l.restart } := by
  unfold LinkPort.beginReply
  rw [ht, hr, ← RestartPhase.replyBegins_eq]

/-- The notice that a free transmitter takes: the oldest UNSENT one. -/
theorem State.noticeToSend_eq {s : State} {sent rest : List Notice} {n : Notice} (ht : s.link.transmitter = none)
    (hr : s.link.replies = []) (ho : s.link.session = .opened) (he : s.notices.entries = sent ++ n :: rest)
    (hs : ∀ e ∈ sent, e.sent = true) (hn : n.sent = false) (hw : s.notices.sentCount < 8) :
    s.noticeToSend = some n :=
  (if_pos ⟨ht, hr, ho⟩).trans (NoticeQueue.presented_eq_some_iff.2 ⟨hw, hn, sent, rest, he, hs⟩)

theorem execNoticeFrameStart_some {s : State} {n : Notice} (h : s.noticeToSend = some n) :
    execNoticeFrameStart s =
      .next ((s.setLink { s.link with transmitter := some (TxFrame.of s.link.rate n.frameBody) }).setNotices
        { s.notices with entries := sendOldest s.notices.entries }) := by
  unfold execNoticeFrameStart
  rw [h]

/-- Settles O21: what a free transmitter takes (`LinkPort.beginReply_eq`, `State.noticeToSend_eq`), and the bytes of the
two kinds of bodies, field by field (`encodeField_eq`) in the order of `inIdOrder`. -/
theorem framesBegin : Obligations.FramesBegin := by
  refine ⟨fun s p rest ht hr => ?_, fun s sent rest n ht hr ho he hs hn hw => ?_, fun p => ?_, fun fs => ?_,
    fun n => ?_⟩
  · exact congrArg (fun l => Host.Outcome.next (s.setLink l)) (LinkPort.beginReply_eq ht hr)
  · refine (execNoticeFrameStart_some (State.noticeToSend_eq ht hr ho he hs hn hw)).trans ?_
    rw [he, sendOldest_append hs hn]
    rfl
  · exact p.frameBody_eq
  · exact ⟨inIdOrder_perm fs, inIdOrder_sorted fs, inIdOrder_filter fs⟩
  · obtain ⟨seq, time, body, sent⟩ := n
    cases body with
    | orderDone a tag why p used => cases p <;> exact Notice.frameBody_eq rfl (orderDone_onLine ..)
    | linkLost stopped now => exact Notice.frameBody_eq rfl (linkLost_onLine stopped now)
    | orderStarted a tag target dir takeup => cases dir <;> exact Notice.frameBody_eq rfl rfl
    | startup | zone | homed | homeFailed | jogEnded | fault | window | guard | captureWaiting | discarded =>
      exact Notice.frameBody_eq rfl rfl

end Sys2Proof.Machine
end

section
namespace Sys2Proof.Machine

/-! ### The Link Port and the waiting commands -/

/-- What no block but the Link Port changes: its state, and the commands that wait. -/
def State.port (s : State) : LinkPort × List Instr := (s.link, s.pending)

theorem State.port_congr {s t : State} (hl : t.link = s.link) (hp : t.pending = s.pending) : t.port = s.port :=
  congrArg₂ Prod.mk hl hp

theorem State.link_of_port {s t : State} (h : t.port = s.port) : t.link = s.link := congrArg Prod.fst h

theorem State.pending_of_port {s t : State} (h : t.port = s.port) : t.pending = s.pending := congrArg Prod.snd h

@[simp] theorem State.setAxis_port (s : State) (a : AxisId) (x : Axis) : (s.setAxis a x).port = s.port := rfl

@[simp] theorem State.modifyAxis_port (s : State) (a : AxisId) (f : Axis → Axis) : (s.modifyAxis a f).port = s.port := rfl

@[simp] theorem State.setMonitor_port (s : State) (w : WindowMonitor) : (s.setMonitor w).port = s.port := rfl

@[simp] theorem State.offers_port (s : State) (bs : List NoticeBody) : (s.offers bs).port = s.port :=
  State.port_congr (by simp) (by simp)

@[simp] theorem State.sends_port (s : State) (cs : List (AxisId × Claim)) : (s.sends cs).port = s.port :=
  State.port_congr (by simp) (by simp)

@[simp] theorem State.take_port (s : State) (a : AxisId) (f : Axis → Taken) : (s.take a f).port = s.port :=
  State.port_congr (by simp) (by simp)

@[simp] theorem State.monitorTakes_port (s : State) (p : Option Int) (ws : Table Window) (k : Guard → Bool)
    (l : Nat → Window → Bool) : (s.monitorTakes p ws k l).port = s.port :=
  State.port_congr (by simp) (by simp)

@[simp] theorem State.windowsOf_port (s : State) (a : AxisId) : (s.windowsOf a).port = s.port :=
  State.port_congr (by simp) (by simp)

/-! What the Counting Unit, the Window Monitor and homing do leaves the Link Port alone. -/

@[simp] theorem State.loseReference_port (s : State) (a : AxisId) : (s.loseReference a).port = s.port := by
  unfold State.loseReference
  split <;> simp

@[simp] theorem State.raise_port (s : State) (a : AxisId) (k : FaultKind) : (s.raise a k).port = s.port := by
  simp [State.raise]

@[simp] theorem State.raiseLine_port (s : State) (a : AxisId) : (s.raiseLine a).port = s.port := by
  simp [State.raiseLine]

@[simp] theorem State.dropGained_port (s : State) (a : AxisId) : (s.dropGained a).port = s.port := by
  unfold State.dropGained
  split <;> simp

@[simp] theorem State.indexCheck_port (s : State) (a : AxisId) : (s.indexCheck a).port = s.port := by
  unfold State.indexCheck
  dsimp only
  repeat' split
  all_goals simp

@[simp] theorem State.controllerMoves_port (s : State) (a : AxisId) (d : Dir) : (s.controllerMoves a d).port = s.port := by
  simp [State.controllerMoves]

@[simp] theorem State.countEdge_port (s : State) (a : AxisId) (l : EncoderLevels) (order : List Block) :
    (s.countEdge a l order).port = s.port := by
  unfold State.countEdge
  dsimp only
  repeat' split
  all_goals simp

@[simp] theorem State.lineConditionArises_port (s : State) (a : AxisId) : (s.lineConditionArises a).port = s.port := by
  unfold State.lineConditionArises
  dsimp only
  split <;> simp

@[simp] theorem State.startHead_port (s : State) (a : AxisId) : (s.startHead a).port = s.port := by
  simp [State.startHead]

@[simp] theorem State.logSense_port (s : State) (a : AxisId) (active : Bool) : (s.logSense a active).port = s.port := by
  simp [State.logSense]

@[simp] theorem State.referenceAct_port (s : State) (a : AxisId) (datum : Int) (b : Block) :
    (s.referenceAct a datum b).port = s.port := by
  cases b <;> simp [State.referenceAct]

/-- Blocks that take an event one after another leave the Link Port alone where each of them does. -/
theorem State.foldl_port {f : State → Block → State} (hf : ∀ s b, (f s b).port = s.port) (bs : List Block) (s : State) :
    (bs.foldl f s).port = s.port := by
  induction bs generalizing s with
  | nil => rfl
  | cons b bs ih => exact (ih (f s b)).trans (hf s b)

@[simp] theorem State.referenceEvent_port (s : State) (a : AxisId) (datum : Int) (sense : Bool) (order : List Block) :
    (s.referenceEvent a datum sense order).port = s.port :=
  State.foldl_port (fun u b => u.referenceAct_port a datum b) _ (s.modifyAxis a _)

@[simp] theorem State.homingMark_port (s : State) (a : AxisId) (dir : Option Dir) (order : List Block) :
    (s.homingMark a dir order).port = s.port := by
  unfold State.homingMark
  repeat' split
  all_goals simp

@[simp] theorem State.homingSense_port (s : State) (a : AxisId) (h : Homing) (active : Bool) (order : List Block) :
    (s.homingSense a h active order).port = s.port := by
  unfold State.homingSense
  dsimp only
  split <;> simp

/-! ### What the rule of a request leaves of the Link Port -/

@[simp] theorem homeRule_port (fs : List Field) (s : State) : (homeRule fs s).2.port = s.port := by
  unfold homeRule
  dsimp only
  repeat' split
  all_goals simp [State.startHoming]

@[simp] theorem State.configure_port (s : State) (a : AxisId) (c : AxisConfig) : (s.configure a c).port = s.port := by
  unfold State.configure
  dsimp only
  repeat' split
  all_goals simp

@[simp] theorem State.shift_port (s : State) (a : AxisId) (v : Int) : (s.shift a v).port = s.port := by
  unfold State.shift
  dsimp only
  split <;> simp

@[simp] theorem State.jog_port (s : State) (a : AxisId) (dir : Option Dir) (sp : Speed) (n : Nat) :
    (s.jog a dir sp n).port = s.port := by
  cases dir <;> simp [State.jog]

@[simp] theorem State.putWindow_port (s : State) (n : Nat) (v : Window) : (s.putWindow n v).port = s.port := by
  simp [State.putWindow]

@[simp] theorem State.putGuard_port (s : State) (n : Nat) (g : Guard) : (s.putGuard n g).port = s.port := by
  simp [State.putGuard]

@[simp] theorem State.dropGuard_port (s : State) (n : Nat) : (s.dropGuard n).port = s.port := by
  simp [State.dropGuard]

/-- The requests whose rule changes the Link Port itself, beyond the reply. -/
def ReqCode.changesPort : ReqCode → Bool
  | .openSession | .closeSession | .linkStatus | .restart => true
  | _ => false

/-- The command of a request executes it by a rule that keeps the waiting commands, and leaves the Link Port alone but for
four requests. -/
theorem ReqCode.exec_rule (c : ReqCode) :
    ∃ own : List Field → State → Answer × State, (∀ s, exec c.command s = .next (s.execute c own)) ∧
      ∀ fs s, (own fs s).2.pending = s.pending ∧ (c.changesPort = false → (own fs s).2.link = s.link) := by
  have ofPort {own : List Field → State → Answer × State} (hexec : ∀ s, exec c.command s = .next (s.execute c own))
      (hport : ∀ fs s, (own fs s).2.port = s.port) :
      ∃ own : List Field → State → Answer × State, (∀ s, exec c.command s = .next (s.execute c own)) ∧
        ∀ fs s, (own fs s).2.pending = s.pending ∧ (c.changesPort = false → (own fs s).2.link = s.link) :=
    ⟨own, hexec, fun fs s => ⟨State.pending_of_port (hport fs s), fun _ => State.link_of_port (hport fs s)⟩⟩
  cases c with
  | openSession | closeSession | linkStatus =>
    refine ⟨_, fun _ => rfl, fun fs s => ⟨?_, nofun⟩⟩
    dsimp only [openRule, closeRule, linkStatusRule]
    split <;> rfl
  | restart => exact ⟨_, fun _ => rfl, fun fs s => ⟨rfl, nofun⟩⟩
  | ping | identify | getAxis | axisStatus | listStations | release | listOrders | setCapture | readCaptures |
      resendNotices =>
    exact ofPort (fun _ => rfl) fun _ _ => rfl
  | home => exact ofPort (fun _ => rfl) homeRule_port
  | stop => exact ofPort (fun _ => rfl) fun _ s => s.take_port _ _
  | setAxis | teach | shift | cancel | jog | putWindow | putGuard | dropGuard =>
    refine ofPort (fun _ => rfl) fun fs s => ?_
    dsimp only [setAxisRule, teachRule, State.teach, shiftRule, cancelRule, jogRule, putWindowRule, putGuardRule,
      dropGuardRule]
    repeat' split
    all_goals simp
  | clearFault | putStation | dropStation | getStation | putProfile | getProfile | dropProfile | enqueue | hold |
      dropWindow | getWindow | getGuard | setOutputs | ackNotices =>
    refine ofPort (fun _ => rfl) fun fs s => ?_
    dsimp only [clearFaultRule, putStationRule, dropStationRule, getStationRule, putProfileRule, getProfileRule,
      dropProfileRule, enqueueRule, holdRule, dropWindowRule, getWindowRule, getGuardRule, setOutputsRule,
      ackNoticesRule]
    repeat' split
    all_goals rfl

/-! ### Kinds of commands -/

/-- The commands that an axis takes and the Link Port never sees. An edge of SENSE is none of them: the Link Port may
execute a HOME that it meets (R151). -/
def Instr.atAxis : Instr → Bool
  | .countEdge .. | .indexMark .. | .linePairChange .. | .lineTimerExpiry .. | .stallTimerExpiry ..
  | .homingLimitExpiry .. | .settleTimerExpiry .. | .restTimerExpiry .. | .moveLimitExpiry .. | .lockoutTimerExpiry ..
  | .deadmanExpiry .. | .orderStart .. | .stopClaim .. | .limitClaim .. | .guardRelease .. | .faultClaim .. => true
  | _ => false

/-- The request that a command executes, if it is the command of one. -/
def Instr.request (i : Instr) : Option ReqCode := ReqCode.all.find? (fun c => decide (c.command = i))

/-- A command by what it is: the execution of a request, an event of an axis, an edge of SENSE, or an event of the Link
Port. -/
inductive Instr.Kind : Instr → Prop
  | request (c : ReqCode) : Instr.Kind c.command
  | axisEvent {i : Instr} (h : Instr.atAxis i = true) : Instr.Kind i
  | senseEdge (a : AxisId) (high : Bool) (order : List Block) : Instr.Kind (.senseEdge a high order)
  | unknownRequestCode : Instr.Kind .unknownRequestCode
  | retryFromCache : Instr.Kind .retryFromCache
  | byteReceived (e : LineEvent) : Instr.Kind (.byteReceived e)
  | frameGapExpiry (late : Nat) : Instr.Kind (.frameGapExpiry late)
  | frameReceived : Instr.Kind .frameReceived
  | replyFrameStart : Instr.Kind .replyFrameStart
  | noticeFrameStart : Instr.Kind .noticeFrameStart
  | frameEnd (moment : Moment) : Instr.Kind (.frameEnd moment)
  | keepaliveExpiry (order : List Block) (moment : Moment) : Instr.Kind (.keepaliveExpiry order moment)
  | reset (pins : ResetPins) : Instr.Kind (.reset pins)

theorem Instr.Kind.of_request {i : Instr} {c : ReqCode} (h : Instr.request i = some c) : Instr.Kind i := by
  have hc := List.find?_some h
  rw [← of_decide_eq_true hc]
  exact .request c

theorem Instr.kind (i : Instr) : Instr.Kind i := by
  cases i
  case senseEdge a high order => exact .senseEdge a high order
  case unknownRequestCode => exact .unknownRequestCode
  case retryFromCache => exact .retryFromCache
  case byteReceived e => exact .byteReceived e
  case frameGapExpiry late => exact .frameGapExpiry late
  case frameReceived => exact .frameReceived
  case replyFrameStart => exact .replyFrameStart
  case noticeFrameStart => exact .noticeFrameStart
  case frameEnd moment => exact .frameEnd moment
  case keepaliveExpiry order moment => exact .keepaliveExpiry order moment
  case reset pins => exact .reset pins
  case countEdge | indexMark | linePairChange | lineTimerExpiry | stallTimerExpiry | homingLimitExpiry |
      settleTimerExpiry | restTimerExpiry | moveLimitExpiry | lockoutTimerExpiry | deadmanExpiry | orderStart |
      stopClaim | limitClaim | guardRelease | faultClaim =>
    exact .axisEvent rfl
  all_goals exact .of_request rfl

/-! ### The Link Port through a command -/

theorem LinkPort.advance_zero (l : LinkPort) : l.advance 0 = l := by
  have htimer : Timer.advance 0 = id := rfl
  have hframer : l.framer.advance 0 = l.framer := by cases l.framer <;> rfl
  unfold LinkPort.advance
  simp [htimer, hframer]

/-- Beside the Link Port: its timers may run on, and nothing else of it changes. -/
def State.PortWaits (s t : State) : Prop := t.pending = s.pending ∧ ∃ n, t.link = s.link.advance n

theorem State.PortWaits.of_port {s t : State} (h : t.port = s.port) : s.PortWaits t :=
  ⟨State.pending_of_port h, 0, (State.link_of_port h).trans s.link.advance_zero.symm⟩

/-- An expiry whose effect leaves the Link Port alone. -/
theorem State.expire_portWaits {f : State → State} (hf : ∀ u, (f u).port = u.port) (s : State) (t : Option Timer)
    (late : Nat) : s.PortWaits (s.expire t late f) := by
  rcases s.expire_cases t late f with e | ⟨u, -, -, e⟩
  · rw [e]
    exact .of_port rfl
  · rw [e]
    have hport := hf (s.runTo u late)
    exact ⟨(State.pending_of_port hport).trans rfl, u.wait late, (State.link_of_port hport).trans rfl⟩

theorem State.sameInstantEdge_port (s : State) (a : AxisId) (edge : Option EncoderLevels) (order : List Block) :
    (s.sameInstantEdge a edge order).port = s.port := by
  cases edge
  · rfl
  · exact s.countEdge_port a _ order

/-- An event of an axis leaves the Link Port alone. -/
theorem exec_axisEvent {i : Instr} (hi : Instr.atAxis i = true) {s t : State} (e : exec i s = .next t) :
    s.PortWaits t := by
  cases i <;> simp only [Instr.atAxis, Bool.false_eq_true] at hi <;> cases e
  case countEdge a l order => exact .of_port (s.countEdge_port a l order)
  case indexMark a edge order => exact .of_port (by simp [State.sameInstantEdge_port])
  case linePairChange => exact .of_port rfl
  case lineTimerExpiry a _ => exact State.expire_portWaits (fun u => u.lineConditionArises_port a) s _ _
  case stallTimerExpiry | homingLimitExpiry | settleTimerExpiry | restTimerExpiry | moveLimitExpiry |
      lockoutTimerExpiry | deadmanExpiry =>
    exact State.expire_portWaits (fun u => u.take_port _ _) s _ _
  case orderStart a => exact .of_port (s.startHead_port a)
  case stopClaim | limitClaim | guardRelease => exact .of_port (s.take_port _ _)
  case faultClaim a => exact .of_port ((State.take_port _ a _).trans (s.dropGained_port a))

/-- All the execution of a request can do: nothing, where it is not due; an answer of the general checks alone; or what
the rule of the request does. -/
theorem State.execute_cases (s : State) (c : ReqCode) (own : List Field → State → Answer × State) :
    s.execute c own = s ∨
      ∃ r, s.dueRequest (some c) = some r ∧
        ((∃ ans, s.execute c own = s.answered r ans) ∨
          ∃ fs, Serves s c r fs ∧ s.execute c own = State.reply r.tag (own fs (s.setLink s.link.popIntake))) := by
  cases hdue : s.dueRequest (some c) with
  | none =>
    left
    unfold State.execute
    rw [hdue]
  | some r =>
    refine .inr ⟨r, rfl, ?_⟩
    cases hcheck : c.check s.link.session r.area with
    | refused ans =>
      have hserve : (s.setLink s.link.popIntake).serve c r.area own = (ans, s.setLink s.link.popIntake) := by
        unfold State.serve
        rw [show (s.setLink s.link.popIntake).link.session = s.link.session from rfl, hcheck]
      refine .inl ⟨ans, ?_⟩
      unfold State.execute
      rw [hdue]
      exact congrArg (State.reply r.tag) hserve
    | passed fs => exact .inr ⟨fs, ⟨hdue, hcheck⟩, State.execute_serves s c r fs own ⟨hdue, hcheck⟩⟩

/-- An edge of SENSE leaves the Link Port alone, or the Link Port executes the HOME that meets it (R151). -/
theorem State.senseChange_port (s : State) (a : AxisId) (high : Bool) (order : List Block) :
    (s.senseChange a high order).port = s.port ∨
      (s.senseChange a high order).port = ((s.modifyAxis a (Axis.senseLevel high)).execute .home homeRule).port := by
  unfold State.senseChange
  dsimp only
  split
  · exact .inl (State.homingSense_port (s.modifyAxis a _) ..)
  all_goals
    rw [State.logSense_port]
    unfold State.homeAtEdge
    split
    · exact .inr rfl
    · exact .inl rfl

/-- What every command and a passing millisecond keep, whatever waits, every step keeps. -/
theorem keptByStep_of_exec {p : State → Prop} (hexec : ∀ i s t, p s → exec i s = .next t → p t)
    (hwaiting : ∀ s cs, p s → p (s.withPending cs)) (htime : ∀ s, p s → p (s.advance 1000)) : KeptByStep p := by
  intro s t h e
  unfold step at e
  split at e
  · exact hexec _ _ t (hwaiting s _ h) e
  · split at e
    · exact hexec _ s t h e
    · cases e
      exact htime s h

/-- The answer to a CODE that is no request code, by `State.dueRequest`. -/
theorem State.executeUnknown_cases (s : State) :
    s.executeUnknown = s ∨
      ∃ r, s.dueRequest none = some r ∧ s.executeUnknown = s.answered r (.bare .badFormat) := by
  unfold State.executeUnknown
  cases hdue : s.dueRequest none with
  | none => exact .inl rfl
  | some r => exact .inr ⟨r, rfl, rfl⟩

end Sys2Proof.Machine
end

section
namespace Sys2Proof.Machine

/-! ### Every command answers -/

/-- The execution of a request keeps the waiting commands where its rule does. -/
theorem State.execute_pending {c : ReqCode} {own : List Field → State → Answer × State}
    (h : ∀ fs s, (own fs s).2.pending = s.pending) (s : State) : (s.execute c own).pending = s.pending := by
  rcases s.execute_cases c own with e | ⟨r, -, ⟨ans, e⟩ | ⟨fs, -, e⟩⟩ <;> rw [e]
  · rfl
  · exact h fs (s.setLink s.link.popIntake)

/-- An expiry keeps the waiting commands where its effect does. -/
theorem State.expire_pending {f : State → State} (hf : ∀ u, (f u).pending = u.pending) (s : State) (t : Option Timer)
    (late : Nat) : (s.expire t late f).pending = s.pending := by
  rcases s.expire_cases t late f with e | ⟨u, -, -, e⟩
  · rw [e]
  · rw [e]
    exact hf (s.runTo u late)

theorem State.senseChange_pending (s : State) (a : AxisId) (high : Bool) (order : List Block) :
    (s.senseChange a high order).pending = s.pending := by
  rcases s.senseChange_port a high order with h | h
  · exact State.pending_of_port h
  · exact (State.pending_of_port h).trans
      (State.execute_pending (fun fs u => State.pending_of_port (homeRule_port fs u)) (s.modifyAxis a _))

theorem State.restartAfterLoss_pending (st : Straps) (s : State) : (s.restartAfterLoss st).pending = s.pending := by
  unfold State.restartAfterLoss
  split <;> rfl

theorem State.frameEnds_pending (st : Straps) (s : State) : (s.frameEnds st).pending = s.pending := by
  unfold State.frameEnds
  split <;> rfl

theorem State.linkLoss_pending (s : State) (order : List Block) : (s.linkLoss order).pending = s.pending := by
  obtain ⟨-, -, -, -, -, -, hpending⟩ := s.linkLoss_eq order
  exact hpending

/-- A command answers a next state, whatever it finds. -/
theorem exec_next (i : Instr) (s : State) : ∃ t, exec i s = .next t := by
  cases i <;> exact ⟨_, rfl⟩

/-- No command touches those that wait behind it. -/
theorem exec_pending (i : Instr) {s t : State} (e : exec i s = .next t) : t.pending = s.pending := by
  cases Instr.kind i with
  | request c =>
    obtain ⟨own, hexec, hrule⟩ := c.exec_rule
    rw [hexec] at e
    cases e
    exact State.execute_pending (fun fs u => (hrule fs u).1) s
  | axisEvent h => exact (exec_axisEvent h e).1
  | senseEdge a high order =>
    cases e
    split
    · rfl
    · exact s.senseChange_pending a high order
  | unknownRequestCode =>
    cases e
    rcases s.executeUnknown_cases with e | ⟨r, -, e⟩
    · rw [e]
    · rw [e]
      rfl
  | noticeFrameStart =>
    cases e
    split <;> rfl
  | frameGapExpiry =>
    cases e
    refine State.expire_pending (fun u => ?_) s _ _
    rfl
  | frameEnd moment =>
    cases e
    exact State.expire_pending (State.frameEnds_pending moment.straps) s _ _
  | keepaliveExpiry order moment =>
    cases e
    refine State.expire_pending (fun u => ?_) s _ _
    split
    · rfl
    · exact (State.restartAfterLoss_pending ..).trans (u.linkLoss_pending order)
  | retryFromCache | byteReceived | frameReceived | replyFrameStart | reset =>
    cases e
    rfl

theorem step_next (s : State) : ∃ t, step s = .next t := by
  unfold step
  split
  · exact exec_next _ _
  · split
    · exact exec_next _ s
    · exact ⟨_, rfl⟩

theorem run_next {M : Host.Core} {n : Nat} {s t : M.State} (h : M.step s = .next t) : M.run (n + 1) s = M.run n t := by
  rw [Host.Core.run, h]

/-- A run goes on, step by step. -/
theorem State.safe (s : State) : s.Safe := by
  intro n
  induction n generalizing s with
  | zero => exact ⟨s, rfl⟩
  | succ n ih =>
    obtain ⟨t, ht⟩ := step_next s
    obtain ⟨u, hu⟩ := ih t
    exact ⟨u, (run_next (M := Sys2Proof.core) ht).trans hu⟩

/-! ### Commands that are not due -/

/-- A request is executed only when it is due. -/
theorem State.execute_idles {s : State} {c : ReqCode} (h : s.dueRequest (some c) = none)
    (own : List Field → State → Answer × State) : s.execute c own = s := by
  unfold State.execute
  rw [h]

theorem State.executeUnknown_idles {s : State} (h : s.dueRequest none = none) : s.executeUnknown = s := by
  unfold State.executeUnknown
  rw [h]

theorem LinkPort.cached_eq_none_iff {l : LinkPort} {tag : Byte} :
    l.cached tag = none ↔ ∀ p ∈ l.cache, p.tag ≠ tag := by
  simp [LinkPort.cached]

theorem LinkPort.executes_iff {l : LinkPort} : l.executes = true ↔ l.replies.length < 4 ∧ l.restart = .none := by
  simp [LinkPort.executes, Config.replies]

/-- A request is answered from the cache when it is a RETRY with a cached TAG, and the Link Port executes (R183). -/
theorem LinkPort.answerRetry_idles {l : LinkPort}
    (h : ∀ r ∈ l.intake.head?, r.retry = false ∨ (∀ p ∈ l.cache, p.tag ≠ r.tag) ∨ 4 ≤ l.replies.length ∨
      l.restart ≠ .none) : l.answerRetry = l := by
  unfold LinkPort.answerRetry
  split
  · rfl
  rename_i r rest hintake
  split
  · rfl
  rename_i p hcached
  refine if_neg fun hc => ?_
  obtain ⟨hexecutes, hretry⟩ := Bool.and_eq_true_iff.1 hc
  obtain ⟨hroom, hrestart⟩ := LinkPort.executes_iff.1 hexecutes
  rcases h r (by rw [hintake]; rfl) with hr | hr | hr | hr
  · rw [hretry] at hr
    cases hr
  · rw [LinkPort.cached_eq_none_iff.2 hr] at hcached
    cases hcached
  · omega
  · exact hr hrestart

theorem LinkPort.beginReply_idles {l : LinkPort} (h : l.transmitter ≠ none ∨ l.replies = []) : l.beginReply = l := by
  unfold LinkPort.beginReply
  split
  · rename_i r rest ht hr
    rw [hr] at h
    rcases h with h | h
    · exact absurd ht h
    · cases h
  · rfl

theorem State.noticeToSend_idles {s : State}
    (h : s.link.transmitter ≠ none ∨ s.link.replies ≠ [] ∨ s.link.session = .closed ∨ 8 ≤ s.notices.sentCount ∨
      ∀ e ∈ s.notices.entries, e.sent = true) : s.noticeToSend = none := by
  cases hsend : s.noticeToSend with
  | none => rfl
  | some n =>
    exfalso
    unfold State.noticeToSend at hsend
    split at hsend
    · rename_i hfree
      obtain ⟨ht, hr, hs⟩ := hfree
      obtain ⟨hwindow, hunsent, sent, rest, hentries, -⟩ := NoticeQueue.presented_eq_some_iff.1 hsend
      rcases h with h | h | h | h | h
      · exact h ht
      · exact h hr
      · rw [hs] at h
        cases h
      · omega
      · have hn := h n (by rw [hentries]; simp)
        rw [hunsent] at hn
        cases hn
    · cases hsend

/-- An Axis Controller that does nothing with an event leaves the part as it is. -/
theorem State.take_idles {s : State} {a : AxisId} {f : Axis → Taken} (h : f (s.axis a) = (s.axis a, [])) :
    s.take a f = s := by
  unfold State.take
  rw [h]
  exact s.setAxis_self a

theorem Axis.takeStart_idles {x : Axis} (h : x.motion ≠ .idle ∨ x.queue = []) (a : AxisId) (now : Time) (t : TableStore)
    (guarded : Bool) (limited : Dir → Bool) : x.takeStart a now t guarded limited = (x, []) := by
  unfold Axis.takeStart
  split
  · rename_i o rest hm hq
    rw [hq] at h
    rcases h with h | h
    · exact absurd hm h
    · cases h
  · rfl

theorem Axis.stopClaim_idles {x : Axis} (h : x.claims.head? ≠ some .stop) (a : AxisId) (now : Time) :
    x.stopClaim a now = (x, []) := by
  unfold Axis.stopClaim
  split
  · rename_i hc
    rw [hc] at h
    exact absurd rfl h
  · rfl

theorem Axis.limitClaim_idles {x : Axis} (h : ∀ d, x.claims.head? ≠ some (.limit d)) (a : AxisId) (now : Time) :
    x.limitClaim a now = (x, []) := by
  unfold Axis.limitClaim
  split
  · rename_i d _ hc
    rw [hc] at h
    exact absurd rfl (h d)
  · rfl

theorem Axis.guardRelease_idles {x : Axis} (h : x.claims.head? ≠ some .release) : x.guardRelease = (x, []) := by
  unfold Axis.guardRelease
  split
  · rename_i hc
    rw [hc] at h
    exact absurd rfl h
  · rfl

theorem State.faultClaim_idles {s : State} {a : AxisId} (h : (s.axis a).faultClaims = []) :
    (s.dropGained a).take a (Axis.faultClaim a s.timebase) = s := by
  have hdrop : s.dropGained a = s := by
    unfold State.dropGained
    rw [h]
  rw [hdrop]
  refine State.take_idles ?_
  unfold Axis.faultClaim
  rw [h]

/-- Settles O3: every arm of `exec` answers, `exec_pending`, and one lemma for each command that is not due. -/
theorem everyCommandAnswersAndNoRunStops : Obligations.EveryCommandAnswersAndNoRunStops := by
  have same {s t : State} (h : t = s) : (Host.Outcome.next t : Host.Outcome State Fault Refusal) = .next s :=
    congrArg _ h
  have sameLink {s : State} {l : LinkPort} (h : l = s.link) : s.setLink l = s := by
    rw [h]
    rfl
  refine ⟨fun c s => ?_, State.safe, fun s => ?_⟩
  · obtain ⟨t, ht⟩ := exec_next c s
    exact ⟨t, ht, exec_pending c ht⟩
  intro idles
  refine ⟨fun c h => ?_, fun h => same (State.executeUnknown_idles h),
    fun h => same (sameLink (LinkPort.answerRetry_idles h)), fun h => same (sameLink ?_),
    fun h => same (sameLink (LinkPort.beginReply_idles h)), fun h => same ?_, fun a => ⟨fun h => ?_, fun h => ?_,
    fun h => ?_, fun h => ?_, fun h => same (State.faultClaim_idles h)⟩⟩
  · obtain ⟨own, hexec, -⟩ := c.exec_rule
    exact (hexec s).trans (same (State.execute_idles h own))
  · unfold LinkPort.frameReceived
    rw [h]
  · rw [State.noticeToSend_idles h]
  · exact same (State.take_idles (Axis.takeStart_idles h ..))
  · exact same (State.take_idles (Axis.stopClaim_idles h ..))
  · exact same (State.take_idles (Axis.limitClaim_idles h ..))
  · exact same (State.take_idles (Axis.guardRelease_idles h))

end Sys2Proof.Machine
end

section
namespace Sys2Proof.Machine

/-! ### The reply cache -/

/-- What the cache holds behind a write: of the other replies the newest seven at most, and the new one (R182). -/
theorem cacheWrite_eq {cache : List Reply} (h : cache.length ≤ 8) (r : Reply) :
    cacheWrite cache r =
      (cache.filter (fun e => e.tag != r.tag)).drop ((cache.filter (fun e => e.tag != r.tag)).length - 7) ++ [r] := by
  have hle := (List.length_filter_le (fun e : Reply => e.tag != r.tag) cache).trans h
  unfold cacheWrite
  generalize cache.filter (fun e => e.tag != r.tag) = others at hle ⊢
  dsimp only [Config.cache]
  split
  · rw [Nat.sub_eq_zero_of_le (by omega), List.drop_zero]
  · rw [show others.length - 7 = 1 by omega, List.drop_one]

theorem cacheWrite_length {cache : List Reply} (h : cache.length ≤ 8) (r : Reply) : (cacheWrite cache r).length ≤ 8 := by
  rw [cacheWrite_eq h, List.length_append, List.length_drop, List.length_singleton]
  omega

/-- No two replies in the cache have one tag: the write removes the one with the tag it brings. -/
theorem cacheWrite_nodup {cache : List Reply} (h : cache.length ≤ 8) (hn : (cache.map (·.tag)).Nodup) (r : Reply) :
    ((cacheWrite cache r).map (·.tag)).Nodup := by
  rw [cacheWrite_eq h, List.map_append, List.map_singleton]
  refine List.nodup_append.2 ⟨?_, List.nodup_singleton _, fun tag htag other hother => ?_⟩
  · exact hn.sublist (((List.drop_sublist ..).trans List.filter_sublist).map _)
  · obtain ⟨e, he, rfl⟩ := List.mem_map.1 htag
    have hne := (List.mem_filter.1 (List.mem_of_mem_drop he)).2
    rw [List.mem_singleton.1 hother]
    exact bne_iff_ne.1 hne

/-! ### The Link Port within its bounds -/

theorem saturate_le (n : Nat) : saturate n ≤ 65535 := by
  rw [saturate_eq]
  exact Nat.min_le_left ..

theorem LinkPort.Ok.countFormat {l : LinkPort} (h : l.Ok) : l.countFormat.Ok := by
  obtain ⟨hcrc, hgap, -, hdropped⟩ := h.counters
  exact { h with counters := ⟨hcrc, hgap, saturate_le _, hdropped⟩ }

theorem LinkPort.Ok.countCrc {l : LinkPort} (h : l.Ok) : l.countCrc.Ok := by
  obtain ⟨-, hgap, hformat, hdropped⟩ := h.counters
  exact { h with counters := ⟨saturate_le _, hgap, hformat, hdropped⟩ }

theorem LinkPort.Ok.countGap {l : LinkPort} (h : l.Ok) : l.countGap.Ok := by
  obtain ⟨hcrc, -, hformat, hdropped⟩ := h.counters
  exact { h with counters := ⟨hcrc, saturate_le _, hformat, hdropped⟩ }

theorem LinkPort.Ok.countDropped {l : LinkPort} (h : l.Ok) : l.countDropped.Ok := by
  obtain ⟨hcrc, hgap, hformat, -⟩ := h.counters
  exact { h with counters := ⟨hcrc, hgap, hformat, saturate_le _⟩ }

/-- Outside a frame is always within bounds, RESETN low or not. -/
theorem LinkPort.Ok.hunt {l : LinkPort} (h : l.Ok) : ({ l with framer := .hunt } : LinkPort).Ok :=
  { h with
    framer := trivial
    held := fun hlow => ⟨rfl, (h.held hlow).2⟩ }

/-- With RESETN high the framer may stand in a frame. -/
theorem LinkPort.Ok.inFrame {l : LinkPort} (h : l.Ok) (hhigh : l.resetnLow = false) {f : Framer} (hf : f.Ok) :
    ({ l with framer := f } : LinkPort).Ok :=
  { h with
    framer := hf
    held := fun hlow => absurd hlow (ne_true_of_eq_false hhigh) }

theorem LinkPort.Ok.bodyTaken {l : LinkPort} (h : l.Ok) (hhigh : l.resetnLow = false) {len : Byte} {taken : List Byte}
    (hlen : 3 ≤ len.toNat ∧ len.toNat ≤ 200) : (l.bodyTaken len taken).Ok := by
  unfold LinkPort.bodyTaken
  split
  · rename_i hmore
    exact h.inFrame hhigh ⟨hlen.1, hlen.2, hmore⟩
  · exact { h.hunt with held := fun hlow => absurd hlow (ne_true_of_eq_false hhigh) }

theorem LinkPort.Ok.takeByte {l : LinkPort} (h : l.Ok) (hhigh : l.resetnLow = false) (b : Byte) : (l.takeByte b).Ok := by
  unfold LinkPort.takeByte
  split
  · split
    · exact h.inFrame hhigh trivial
    · exact h
  · split
    · rename_i hlen
      exact h.inFrame hhigh ⟨hlen.1, hlen.2, Nat.zero_lt_succ _⟩
    · exact h.hunt.countFormat
  · rename_i len taken gap hframer
    have hbody := h.framer
    rw [hframer] at hbody
    obtain ⟨hmin, hmax, -⟩ := hbody
    exact h.bodyTaken hhigh ⟨hmin, hmax⟩

theorem LinkPort.Ok.takeDamaged {l : LinkPort} (h : l.Ok) : l.takeDamaged.Ok := by
  unfold LinkPort.takeDamaged
  split
  · exact h
  all_goals exact h.hunt.countFormat

theorem LinkPort.Ok.takeEvent {l : LinkPort} (h : l.Ok) (e : LineEvent) : (l.takeEvent e).Ok := by
  unfold LinkPort.takeEvent
  split
  · exact h
  rename_i hhigh
  cases e with
  | byte b => exact h.takeByte (Bool.eq_false_iff.2 hhigh) b
  | damaged | breakSignal => exact h.takeDamaged

theorem LinkPort.Ok.alive {l : LinkPort} (h : l.Ok) : l.alive.Ok := by
  unfold LinkPort.alive
  split
  · exact h
  · rename_i hopen
    exact { h with closed := fun hclosed => by rw [show l.session = .closed from hclosed] at hopen; cases hopen }

theorem LinkPort.alive_resetnLow (l : LinkPort) : l.alive.resetnLow = l.resetnLow := by
  unfold LinkPort.alive
  split <;> rfl

theorem LinkPort.Ok.joinIntake {l : LinkPort} (h : l.Ok) (hhigh : l.resetnLow = false) (r : Request) :
    (l.joinIntake r).Ok := by
  unfold LinkPort.joinIntake
  split
  · rename_i hroom
    exact
      { h with
        intake := by
          rw [List.length_append]
          exact hroom
        held := fun hlow => absurd hlow (ne_true_of_eq_false hhigh) }
  · exact h.countDropped

theorem LinkPort.Ok.checkFrame {l : LinkPort} (h : l.Ok) (hhigh : l.resetnLow = false) (f : RxFrame) :
    (l.checkFrame f).Ok := by
  unfold LinkPort.checkFrame
  split
  · split
    · exact h.alive.joinIntake (l.alive_resetnLow.trans hhigh) _
    · exact h.alive.countFormat
  · exact h.countCrc

/-- A complete frame is there only while RESETN is high. -/
theorem LinkPort.Ok.frameReceived {l : LinkPort} (h : l.Ok) : l.frameReceived.Ok := by
  unfold LinkPort.frameReceived
  split
  · exact h
  · rename_i f rest hcompleted
    have hhigh : l.resetnLow = false := Bool.eq_false_iff.2 fun hlow => by
      obtain ⟨-, hnone, -⟩ := h.held hlow
      rw [hcompleted] at hnone
      cases hnone
    have hrest : ({ l with completed := rest } : LinkPort).Ok :=
      { h with held := fun hlow => absurd hlow (ne_true_of_eq_false hhigh) }
    exact hrest.checkFrame hhigh f

theorem LinkPort.Ok.beginReply {l : LinkPort} (h : l.Ok) : l.beginReply.Ok := by
  unfold LinkPort.beginReply
  split
  · rename_i r rest ht hr
    have hroom := h.replies
    rw [hr, List.length_cons] at hroom
    have hphase := RestartPhase.replyBegins_eq rest l.restart
    exact
      { h with
        replies := Nat.le_of_succ_le hroom
        waiting := fun hw => by
          dsimp only at hw ⊢
          rw [hphase] at hw
          split at hw
          · cases hw
          · rename_i hnot
            exact fun hrest => hnot ⟨hw, hrest⟩
        sending := fun _ => Option.some_ne_none _
        held := fun hlow => by
          obtain ⟨-, -, -, hnone, -⟩ := h.held hlow
          rw [hr] at hnone
          cases hnone }
  · exact h

theorem LinkPort.Ok.answerRetry {l : LinkPort} (h : l.Ok) : l.answerRetry.Ok := by
  unfold LinkPort.answerRetry
  split
  · exact h
  rename_i r rest hintake
  split
  · exact h
  rename_i p hcached
  split
  · rename_i hdue
    obtain ⟨hexecutes, -⟩ := Bool.and_eq_true_iff.1 hdue
    obtain ⟨hroom, hrestart⟩ := LinkPort.executes_iff.1 hexecutes
    exact
      { h with
        intake := (List.tail_sublist l.intake).length_le.trans h.intake
        replies := by
          rw [List.length_append]
          exact hroom
        waiting := fun _ => List.append_ne_nil_of_right_ne_nil _ (List.cons_ne_nil _ _)
        held := fun hlow => by
          obtain ⟨-, -, hnone, -⟩ := h.held hlow
          rw [hintake] at hnone
          cases hnone }
  · exact h

theorem LinkPort.ok_reset (st : Straps) (held : Bool) : (LinkPort.reset st held).Ok where
  framer := trivial
  intake := Nat.zero_le _
  replies := Nat.zero_le _
  cache := Nat.zero_le _
  tags := List.nodup_nil
  counters := ⟨Nat.zero_le _, Nat.zero_le _, Nat.zero_le _, Nat.zero_le _⟩
  closed := fun _ => rfl
  rate := rfl
  waiting := nofun
  sending := nofun
  held := fun _ => ⟨rfl, rfl, rfl, rfl, rfl, rfl⟩

/-- The loss of the link that discards no RESTART reply. -/
theorem LinkPort.Ok.lose {l : LinkPort} (h : l.Ok) (hphase : l.restart ≠ .replyWaiting) : l.lose.Ok :=
  { h with
    intake := Nat.zero_le _
    replies := Nat.zero_le _
    cache := Nat.zero_le _
    tags := List.nodup_nil
    closed := fun _ => rfl
    waiting := fun hw => absurd hw hphase
    held := fun hlow => by
      obtain ⟨hframer, hcompleted, -, -, htransmitter, -⟩ := h.held hlow
      exact ⟨hframer, hcompleted, rfl, rfl, htransmitter, rfl⟩ }

theorem Framer.Ok.advance {f : Framer} (h : f.Ok) (n : Nat) : (f.advance n).Ok := by
  cases f <;> exact h

theorem LinkPort.Ok.advance {l : LinkPort} (h : l.Ok) (n : Nat) : (l.advance n).Ok :=
  { h with
    framer := h.framer.advance n
    closed := fun hclosed => by
      show l.keepalive.map _ = none
      rw [h.closed hclosed, Option.map_none]
    sending := fun hs => by
      show l.transmitter.map _ ≠ none
      rw [ne_eq, Option.map_eq_none_iff]
      exact h.sending hs
    held := fun hlow => by
      obtain ⟨hframer, hcompleted, hintake, hreplies, htransmitter, hsession⟩ := h.held hlow
      refine ⟨?_, hcompleted, hintake, hreplies, ?_, hsession⟩
      · show l.framer.advance n = .hunt
        rw [hframer]
        rfl
      · show l.transmitter.map _ = none
        rw [htransmitter, Option.map_none] }

/-! ### The Link Port that executes a request -/

/-- The Link Port while it executes a request: within its bounds, with room for the reply, with no RESTART pending and
RESETN high (R177, R191, R192). -/
structure LinkPort.Ready (l : LinkPort) : Prop extends LinkPort.Ok l where
  room : l.replies.length < 4
  free : l.restart = .none
  high : l.resetnLow = false

/-- The Link Port behind the oldest request, when that is due. -/
theorem State.dueRequest_ready {s : State} {c : Option ReqCode} {r : Request} (h : s.link.Ok)
    (hdue : s.dueRequest c = some r) : s.link.popIntake.Ready := by
  obtain ⟨⟨rest, hintake⟩, hexecutes, -, -⟩ := State.dueRequest_some hdue
  obtain ⟨hroom, hfree⟩ := LinkPort.executes_iff.1 hexecutes
  have hhigh : s.link.resetnLow = false := Bool.eq_false_iff.2 fun hlow => by
    obtain ⟨-, -, hnone, -⟩ := h.held hlow
    rw [hintake] at hnone
    cases hnone
  exact
    { h with
      intake := (List.tail_sublist s.link.intake).length_le.trans h.intake
      held := fun hlow => absurd hlow (ne_true_of_eq_false hhigh)
      room := hroom
      free := hfree
      high := hhigh }

/-- A reply joins, and it may be that of a RESTART. -/
theorem LinkPort.Ready.answer_in {l : LinkPort} (h : l.Ready) {phase : RestartPhase} (hp : phase ≠ .replySending)
    (p : Reply) : (({ l with restart := phase } : LinkPort).answer p).Ok :=
  { h.toOk with
    replies := by
      have hroom := h.room
      rw [LinkPort.answer, List.length_append]
      exact hroom
    cache := cacheWrite_length h.cache p
    tags := cacheWrite_nodup h.cache h.tags p
    waiting := fun _ => List.append_ne_nil_of_right_ne_nil _ (List.cons_ne_nil _ _)
    sending := fun hs => absurd hs hp
    held := fun hlow => absurd hlow (ne_true_of_eq_false h.high) }

theorem LinkPort.Ready.answer {l : LinkPort} (h : l.Ready) (p : Reply) : (l.answer p).Ok := by
  have hphase : l.restart ≠ .replySending := by
    rw [h.free]
    nofun
  exact h.answer_in hphase p

theorem LinkPort.Ready.opens {l : LinkPort} (h : l.Ready) (n : Nat) : (l.opens n).Ready :=
  { h with
    cache := Nat.zero_le _
    tags := List.nodup_nil
    closed := nofun
    held := fun hlow => absurd hlow (ne_true_of_eq_false h.high) }

theorem LinkPort.Ready.closes {l : LinkPort} (h : l.Ready) : l.closes.Ready :=
  { h with
    replies := Nat.zero_le _
    cache := Nat.zero_le _
    tags := List.nodup_nil
    closed := fun _ => rfl
    waiting := fun hw => absurd (h.free.symm.trans hw) nofun
    held := fun hlow => absurd hlow (ne_true_of_eq_false h.high)
    room := Nat.zero_lt_succ _ }

/-- The execution of a request keeps the Link Port within its bounds where its rule leaves it fit for the reply. -/
theorem State.execute_linkOk {s : State} (h : s.link.Ok) {c : ReqCode} {own : List Field → State → Answer × State}
    (ho : ∀ fs u p, (State.link u).Ready → ((own fs u).2.link.answer p).Ok) : (s.execute c own).link.Ok := by
  rcases s.execute_cases c own with e | ⟨r, hdue, ⟨ans, e⟩ | ⟨fs, -, e⟩⟩ <;> rw [e]
  · exact h
  · exact (State.dueRequest_ready h hdue).answer _
  · exact ho fs (s.setLink s.link.popIntake) _ (State.dueRequest_ready h hdue)

theorem openRule_linkOk (fs : List Field) {s : State} (h : s.link.Ready) (p : Reply) :
    ((openRule fs s).2.link.answer p).Ok := by
  unfold openRule
  split
  · exact h.answer p
  · exact (h.opens _).answer p

theorem closeRule_linkOk (fs : List Field) {s : State} (h : s.link.Ready) (p : Reply) :
    ((closeRule fs s).2.link.answer p).Ok := by
  unfold closeRule
  split
  · exact h.answer p
  · exact h.closes.answer p

theorem linkStatusRule_linkOk (fs : List Field) {s : State} (h : s.link.Ready) (p : Reply) :
    ((linkStatusRule fs s).2.link.answer p).Ok := by
  have hzero : ({ s.link with counters := ⟨0, 0, 0, 0⟩ } : LinkPort).Ready :=
    { h with counters := ⟨Nat.zero_le _, Nat.zero_le _, Nat.zero_le _, Nat.zero_le _⟩ }
  unfold linkStatusRule
  dsimp only
  split
  · exact hzero.answer p
  · exact h.answer p

/-- The command of a request keeps the Link Port within its bounds. -/
theorem ReqCode.exec_linkOk (c : ReqCode) {s t : State} (h : s.link.Ok) (e : exec c.command s = .next t) :
    t.link.Ok := by
  cases hc : c.changesPort with
  | true =>
    cases c <;> simp only [ReqCode.changesPort, Bool.false_eq_true] at hc
    case openSession =>
      cases e
      exact State.execute_linkOk h fun fs _ p hu => openRule_linkOk fs hu p
    case closeSession =>
      cases e
      exact State.execute_linkOk h fun fs _ p hu => closeRule_linkOk fs hu p
    case linkStatus =>
      cases e
      exact State.execute_linkOk h fun fs _ p hu => linkStatusRule_linkOk fs hu p
    case restart =>
      cases e
      exact State.execute_linkOk h fun _ _ p hu => hu.answer_in (phase := .replyWaiting) nofun p
  | false =>
    obtain ⟨own, hexec, hrule⟩ := c.exec_rule
    rw [hexec] at e
    cases e
    refine State.execute_linkOk h fun fs u p hu => ?_
    rw [(hrule fs u).2 hc]
    exact hu.answer p

/-! ### The Link Port through every command -/

/-- An expiry keeps the Link Port within its bounds where its effect does while the timer runs. -/
theorem State.expire_linkOk {s : State} (h : s.link.Ok) {f : State → State} {k : Option Timer}
    (hf : ∀ u n, k = some u → (State.link (s.advance n)).Ok → (f (s.advance n)).link.Ok) (late : Nat) :
    (s.expire k late f).link.Ok := by
  rcases s.expire_cases k late f with e | ⟨u, hk, -, e⟩ <;> rw [e]
  · exact h
  · exact hf u _ hk (h.advance _)

theorem State.frameEnds_linkOk {s : State} (h : s.link.Ok) (st : Straps) : (s.frameEnds st).link.Ok := by
  by_cases hphase : s.link.restart = .replySending
  · rw [State.frameEnds_resets hphase]
    exact LinkPort.ok_reset ..
  · rw [State.frameEnds_frees hphase]
    exact
      { h with
        sending := fun hs => absurd hs hphase
        held := fun hlow => by
          obtain ⟨hframer, hcompleted, hintake, hreplies, -, hsession⟩ := h.held hlow
          exact ⟨hframer, hcompleted, hintake, hreplies, rfl, hsession⟩ }

/-- A link loss, with the reset behind it where it discards the reply of a RESTART (R188, R191). -/
theorem State.linkLoss_linkOk {s : State} (h : s.link.Ok) (order : List Block) (st : Straps) :
    ((s.linkLoss order).restartAfterLoss st).link.Ok := by
  have hlink := s.linkLoss_link order
  have hphase : (s.linkLoss order).link.restart = s.link.restart := (congrArg LinkPort.restart hlink).trans rfl
  unfold State.restartAfterLoss
  split
  · exact LinkPort.ok_reset ..
  all_goals
    rename_i hnot
    rw [hlink]
    refine h.lose fun hw => ?_
    exact absurd (hnot.symm.trans (hphase.trans hw)) nofun

theorem State.noticeFrame_linkOk {s : State} (h : s.link.Ok) {n : Notice} (hn : s.noticeToSend = some n) (f : TxFrame) :
    ({ s.link with transmitter := some f } : LinkPort).Ok := by
  have hopen : s.link.session = .opened := by
    unfold State.noticeToSend at hn
    split at hn
    · rename_i hfree
      obtain ⟨-, -, hsession⟩ := hfree
      exact hsession
    · cases hn
  exact
    { h with
      sending := fun _ => Option.some_ne_none f
      held := fun hlow => by
        obtain ⟨-, -, -, -, -, hclosed⟩ := h.held hlow
        rw [hclosed] at hopen
        cases hopen }

theorem State.senseChange_linkOk {s : State} (h : s.link.Ok) (a : AxisId) (high : Bool) (order : List Block) :
    (s.senseChange a high order).link.Ok := by
  rcases s.senseChange_port a high order with hport | hport <;> rw [State.link_of_port hport]
  · exact h
  · refine State.execute_linkOk (s := s.modifyAxis a _) h fun fs u p hu => ?_
    rw [State.link_of_port (homeRule_port fs u)]
    exact hu.answer p

/-- Every command keeps the Link Port within its bounds. -/
theorem exec_linkOk (i : Instr) {s t : State} (h : s.link.Ok) (e : exec i s = .next t) : t.link.Ok := by
  cases Instr.kind i with
  | request c => exact c.exec_linkOk h e
  | axisEvent hi =>
    obtain ⟨-, n, hlink⟩ := exec_axisEvent hi e
    rw [hlink]
    exact h.advance n
  | senseEdge a high order =>
    cases e
    split
    · exact h
    · exact State.senseChange_linkOk h a high order
  | unknownRequestCode =>
    cases e
    rcases s.executeUnknown_cases with e | ⟨r, hdue, e⟩ <;> rw [e]
    · exact h
    · exact (State.dueRequest_ready h hdue).answer _
  | retryFromCache =>
    cases e
    exact h.answerRetry
  | byteReceived ev =>
    cases e
    exact h.takeEvent ev
  | frameGapExpiry late =>
    cases e
    exact State.expire_linkOk h (fun _ _ _ hu => hu.hunt.countGap) late
  | frameReceived =>
    cases e
    exact h.frameReceived
  | replyFrameStart =>
    cases e
    exact h.beginReply
  | noticeFrameStart =>
    cases e
    split
    · exact h
    · rename_i n hn
      exact State.noticeFrame_linkOk h hn _
  | frameEnd moment =>
    cases e
    exact State.expire_linkOk h (fun _ _ _ hu => State.frameEnds_linkOk hu moment.straps) moment.late
  | keepaliveExpiry order moment =>
    cases e
    refine State.expire_linkOk h (fun _ _ _ hu => ?_) moment.late
    split
    · exact hu
    · exact State.linkLoss_linkOk hu order moment.straps
  | reset pins =>
    cases e
    exact LinkPort.ok_reset ..

/-- Settles O9: a step runs a command, which keeps the Link Port within its bounds (`exec_linkOk`), or lets time pass. -/
theorem stepsKeepTheLinkPort : Obligations.StepsKeepTheLinkPort :=
  keptByStep_of_exec (fun i _ _ h e => exec_linkOk i h e) (fun _ _ h => h) (fun _ h => LinkPort.Ok.advance h 1000)

end Sys2Proof.Machine
end

section
namespace Sys2Proof.Machine

/-! ### A quiet axis -/

/-- An axis out of motion with no queue left that could start (R184, R187). -/
structure Axis.Quiet (x : Axis) : Prop where
  still : x.motion.inMotion = false
  unstarted : x.motion = .idle ∨ x.motion = .waiting → x.queue = []

theorem State.closedQuiet_iff {s : State} : s.ClosedQuiet ↔ (s.link.session = .closed → s.All Axis.Quiet) :=
  ⟨fun h hs a => ⟨(h hs a).1, (h hs a).2⟩, fun h hs a => ⟨(h hs a).still, (h hs a).unstarted⟩⟩

/-- What claims in flight, the Counting Unit, the pins and the passing of time change of an axis says nothing of motion
and queue. -/
theorem Axis.steady_quiet : Axis.Steady Axis.Quiet where
  claims := fun _ _ h => ⟨h.still, h.unstarted⟩
  faultClaims := fun _ _ h => ⟨h.still, h.unstarted⟩
  counting := fun _ _ h => ⟨h.still, h.unstarted⟩
  pins := fun _ _ h => ⟨h.still, h.unstarted⟩
  advance := fun n x h => by
    have hmotion : (x.advance n).motion = x.motion := Motion.advance_still h.still n
    exact ⟨by rw [hmotion]; exact h.still, by rw [hmotion]; exact h.unstarted⟩

theorem Axis.quiet_of_held {x : Axis} (h : x.motion = .held ∨ x.motion = .faulted) : x.Quiet := by
  rcases h with h | h
  all_goals
    refine ⟨by rw [h]; rfl, fun hm => ?_⟩
    rw [h] at hm
    rcases hm with hm | hm <;> cases hm

theorem Axis.Quiet.not_moving {x : Axis} (h : x.Quiet) (o : ActiveOrder) : x.motion ≠ .moving o := by
  intro hm
  have hs := h.still
  rw [hm] at hs
  cases hs

theorem Axis.Quiet.not_homing {x : Axis} (h : x.Quiet) : x.motion.isHoming = false := by
  have hs := h.still
  cases hm : x.motion with
  | homing r => rw [hm] at hs; cases hs
  | idle | held | waiting | moving | jogging | faulted => rfl

/-! ### What a quiet axis takes -/

theorem Axis.Quiet.takeStart {x : Axis} (h : x.Quiet) (a : AxisId) (now : Time) (t : TableStore) (guarded : Bool)
    (limited : Dir → Bool) : (x.takeStart a now t guarded limited).1.Quiet := by
  have hidle : x.motion ≠ .idle ∨ x.queue = [] := by
    by_cases hm : x.motion = .idle
    · exact .inr (h.unstarted (.inl hm))
    · exact .inl hm
  rw [Axis.takeStart_idles hidle]
  exact h

theorem Axis.Quiet.takeStop {x : Axis} (h : x.Quiet) (a : AxisId) (now : Time) : (x.takeStop a now).1.Quiet := by
  have hs := h.still
  unfold Axis.takeStop
  cases hm : x.motion with
  | moving | homing => rw [hm] at hs; cases hs
  | idle | held | waiting | jogging | faulted => exact h

theorem Axis.Quiet.takeLimit {x : Axis} (h : x.Quiet) (a : AxisId) (now : Time) (d : Dir) :
    (x.takeLimit a now d).1.Quiet := by
  have hs := h.still
  unfold Axis.takeLimit
  cases hm : x.motion with
  | moving | jogging => rw [hm] at hs; cases hs
  | idle | held | waiting | homing | faulted => exact h

/-- A WAITING axis that a release makes IDLE has no orders here. -/
theorem Axis.Quiet.takeRelease {x : Axis} (h : x.Quiet) : x.takeRelease.1.Quiet := by
  unfold Axis.takeRelease
  dsimp only
  split
  · rename_i hm
    exact ⟨rfl, fun _ => h.unstarted (.inr hm)⟩
  · exact h

theorem Axis.quiet_takeFault (a : AxisId) (now : Time) (k : FaultKind) (x : Axis) : (x.takeFault a now k).1.Quiet :=
  Axis.quiet_of_held (.inr rfl)

theorem Axis.quiet_stalls (a : AxisId) (now : Time) (x : Axis) : (x.stalls a now).1.Quiet := by
  rw [Axis.stalls_eq]
  exact Axis.quiet_of_held (.inr rfl)

theorem Reason.motionAfter_cases (why : Reason) : why.motionAfter = .held ∨ why.motionAfter = .faulted := by
  unfold Reason.motionAfter
  split
  · exact .inr rfl
  · exact .inl rfl

theorem Axis.quiet_failHoming (a : AxisId) (now : Time) (why : Reason) (x : Axis) :
    (x.failHoming a now why).1.Quiet := Axis.quiet_of_held why.motionAfter_cases

theorem Axis.quiet_endJog (a : AxisId) (now : Time) (why : Reason) (x : Axis) : (x.endJog a now why).1.Quiet :=
  Axis.quiet_of_held why.motionAfter_cases

/-- A timer of an active order finds none. -/
theorem Axis.Quiet.onOrder {x : Axis} (h : x.Quiet) (f : ActiveOrder → Axis → Taken) : (x.onOrder f).1.Quiet := by
  unfold Axis.onOrder
  split
  · rename_i o hm
    exact absurd hm (h.not_moving o)
  all_goals exact h

theorem Axis.Quiet.lockoutExpired {x : Axis} (h : x.Quiet) (a : AxisId) (now : Time) (limited : Dir → Bool) :
    (x.lockoutExpired a now limited).1.Quiet := by
  have hs := h.still
  have hend : x.endLockout.Quiet := ⟨h.still, h.unstarted⟩
  unfold Axis.lockoutExpired
  dsimp only
  rw [show x.endLockout.motion = x.motion from rfl]
  cases hm : x.motion with
  | moving | homing | jogging => rw [hm] at hs; cases hs
  | idle | held | waiting | faulted => exact hend

theorem Axis.Quiet.countEvent {x : Axis} (h : x.Quiet) : x.countEvent.Quiet := by
  have hs := h.still
  unfold Axis.countEvent
  dsimp only
  rw [show x.restartStall.motion = x.motion from rfl]
  cases hm : x.motion with
  | moving | homing | jogging => rw [hm] at hs; cases hs
  | idle | held | waiting | faulted => exact ⟨h.still, h.unstarted⟩

theorem Axis.Quiet.positionMoved {x : Axis} (h : x.Quiet) (a : AxisId) (now : Time) (limited : Dir → Bool) (d : Dir) :
    (x.positionMoved a now limited d).1.Quiet := by
  rw [Axis.positionMoved_standing h.not_moving]
  exact h

theorem Axis.Quiet.capture {x : Axis} (h : x.Quiet) (a : AxisId) (now : Time) (active : Bool) :
    (x.capture a now active).1.Quiet := by
  unfold Axis.capture
  generalize (if active = true then Edge.rise else Edge.fall) = edge
  dsimp only
  split
  · exact ⟨h.still, h.unstarted⟩
  · exact h

/-- An axis that holds its queue is quiet when it was out of motion. -/
theorem Axis.quiet_holdQueue {x : Axis} (h : x.motion.inMotion = false) : x.holdQueue.Quiet := by
  unfold Axis.holdQueue
  split
  · exact Axis.quiet_of_held (.inl rfl)
  · rename_i hnot
    exact ⟨h, fun hm => by_contra fun hq => hnot ⟨hm, hq⟩⟩

/-- A link loss leaves every axis quiet (R188). -/
theorem Axis.quiet_linkLost (a : AxisId) (now : Time) (x : Axis) : (x.linkLost a now).1.Quiet := by
  cases hm : x.motion.inMotion with
  | true =>
    rw [Axis.linkLost_inMotion hm]
    exact Axis.quiet_of_held (.inl rfl)
  | false =>
    rw [Axis.linkLost_still hm]
    exact Axis.quiet_holdQueue hm

/-! ### Quiet axes through the commands -/

theorem State.homingMark_standing {s : State} {a : AxisId} (h : (s.axis a).Quiet) (dir : Option Dir)
    (order : List Block) : s.homingMark a dir order = s := State.homingMark_none h.not_homing dir order

/-- An event of an axis leaves quiet axes quiet: of what it would end or move nothing is there, and nothing starts. -/
theorem exec_axisEvent_quiet {i : Instr} (hi : Instr.atAxis i = true) {s t : State} (h : s.All Axis.Quiet)
    (e : exec i s = .next t) : t.All Axis.Quiet := by
  have st := Axis.steady_quiet
  have hedge (l : EncoderLevels) (a : AxisId) (order : List Block) : (s.countEdge a l order).All Axis.Quiet :=
    h.countEdge st (fun _ hx => hx.countEvent) (fun a now l d _ hx => hx.positionMoved a now l d) a l order
  cases i <;> simp only [Instr.atAxis, Bool.false_eq_true] at hi <;> cases e
  case countEdge a l order => exact hedge l a order
  case indexMark a edge order =>
    have hcheck : ((s.sameInstantEdge a edge order).indexCheck a).All Axis.Quiet := by
      cases edge with
      | none => exact h.indexCheck st a
      | some l => exact (hedge l a order).indexCheck st a
    rw [State.homingMark_standing (hcheck a)]
    exact hcheck
  case linePairChange a m => exact h.modifyAxis a fun hx => ⟨hx.still, hx.unstarted⟩
  case lineTimerExpiry a _ =>
    refine h.expire st _ _ fun u hu => ?_
    have harisen : (u.modifyAxis a fun x =>
        { x with counting := { x.counting with lineFault := true, lineTimer := none } }).All Axis.Quiet :=
      hu.modifyAxis a (st.counting _ _)
    unfold State.lineConditionArises
    dsimp only
    split
    · exact harisen.raiseLine st a
    · exact harisen
  case stallTimerExpiry => exact h.expire st _ _ fun _ hu => hu.take _ fun _ => Axis.quiet_stalls ..
  case homingLimitExpiry => exact h.expire st _ _ fun _ hu => hu.take _ fun _ => Axis.quiet_failHoming ..
  case settleTimerExpiry | restTimerExpiry | moveLimitExpiry =>
    exact h.expire st _ _ fun _ hu => hu.take _ fun hx => hx.onOrder _
  case lockoutTimerExpiry => exact h.expire st _ _ fun _ hu => hu.take _ fun hx => hx.lockoutExpired ..
  case deadmanExpiry => exact h.expire st _ _ fun _ hu => hu.take _ fun _ => Axis.quiet_endJog ..
  case orderStart => exact h.take _ fun hx => hx.takeStart ..
  case stopClaim a =>
    refine h.take a fun hx => ?_
    unfold Axis.stopClaim
    split
    · exact Axis.Quiet.takeStop (st.claims _ _ hx) ..
    · exact hx
  case limitClaim a =>
    refine h.take a fun hx => ?_
    unfold Axis.limitClaim
    split
    · exact Axis.Quiet.takeLimit (st.claims _ _ hx) ..
    · exact hx
  case guardRelease a =>
    refine h.take a fun hx => ?_
    unfold Axis.guardRelease
    split
    · exact Axis.Quiet.takeRelease (st.claims _ _ hx)
    · exact hx
  case faultClaim a =>
    refine (h.dropGained st a).take a fun hx => ?_
    unfold Axis.faultClaim
    split
    · exact hx
    · exact Axis.quiet_takeFault ..

/-! ### The closed session -/

/-- A command that leaves the session and quiet axes as they are. -/
theorem State.ClosedQuiet.of {s t : State} (h : s.ClosedQuiet) (hs : t.link.session = s.link.session)
    (ha : s.All Axis.Quiet → t.All Axis.Quiet) : t.ClosedQuiet :=
  State.closedQuiet_iff.2 fun ht => ha (State.closedQuiet_iff.1 h (hs.symm.trans ht))

/-- In an OPEN session nothing is asked of the axes. -/
theorem State.closedQuiet_of_opened {s : State} (h : s.link.session = .opened) : s.ClosedQuiet := by
  intro hs
  rw [h] at hs
  cases hs

theorem State.closedQuiet_resetTo (s : State) (c : Cause) (st : Straps) (held : Bool) :
    (s.resetTo c st held).ClosedQuiet := State.closedQuiet_iff.2 fun _ a => by
  rw [State.resetTo_axis]
  exact ⟨rfl, fun _ => rfl⟩

/-- The execution of a request keeps the closed session quiet where its rule does, in a session that lets the request
pass (R178 step 2). -/
theorem State.ClosedQuiet.execute {s : State} (h : s.ClosedQuiet) {c : ReqCode}
    {own : List Field → State → Answer × State}
    (ho : ∀ fs u, State.ClosedQuiet u → ((State.link u).session = .closed → c.anySession = true) →
      (own fs u).2.ClosedQuiet) : (s.execute c own).ClosedQuiet := by
  rcases s.execute_cases c own with e | ⟨r, -, ⟨ans, e⟩ | ⟨fs, hserves, e⟩⟩ <;> rw [e]
  · exact h
  · exact h
  · obtain ⟨-, -, -, hsession, -⟩ := hserves.passed
    exact ho fs (s.setLink s.link.popIntake) h hsession

/-- A request that no CLOSED session lets pass, and that leaves the session as it is. -/
theorem State.ClosedQuiet.execute_opened {s : State} (h : s.ClosedQuiet) {c : ReqCode} (hc : c.anySession = false)
    {own : List Field → State → Answer × State}
    (ho : ∀ fs u, (own fs u).2.link.session = (State.link u).session) : (s.execute c own).ClosedQuiet := by
  refine h.execute fun fs u _ hany => State.closedQuiet_of_opened ((ho fs u).trans ?_)
  cases hs : u.link.session with
  | opened => rfl
  | closed =>
    rw [hany hs] at hc
    cases hc

theorem openRule_session (fs : List Field) (s : State) : (openRule fs s).2.link.session = .opened := by
  unfold openRule
  split
  · rename_i hs
    exact hs
  · rfl

theorem State.anyInMotion_iff {s : State} : s.anyInMotion = true ↔ ∃ a, (s.axis a).motion.inMotion = true := by
  simp [State.anyInMotion, AxisId.mem_all]

theorem State.not_anyInMotion {s : State} : s.anyInMotion = false ↔ ∀ a, (s.axis a).motion.inMotion = false := by
  rw [← Bool.not_eq_true, State.anyInMotion_iff]
  simp

/-- CLOSE closes no session with an axis in motion, and holds every queue that could start (R187). -/
theorem closeRule_closedQuiet (fs : List Field) {s : State} (h : s.ClosedQuiet) : (closeRule fs s).2.ClosedQuiet := by
  unfold closeRule
  split
  · exact h
  · rename_i hstill
    refine State.closedQuiet_iff.2 fun _ a => ?_
    rw [State.close_axis]
    exact Axis.quiet_holdQueue (State.not_anyInMotion.1 (Bool.eq_false_iff.2 hstill) a)

/-- The command of a request keeps the closed session quiet: of the three that a CLOSED session lets pass, OPEN opens it,
and IDENTIFY and PING change nothing. -/
theorem ReqCode.exec_closedQuiet (c : ReqCode) {s t : State} (h : s.ClosedQuiet) (e : exec c.command s = .next t) :
    t.ClosedQuiet := by
  cases hport : c.changesPort with
  | true =>
    cases c <;> simp only [ReqCode.changesPort, Bool.false_eq_true] at hport
    case openSession =>
      cases e
      exact h.execute fun fs u _ _ => State.closedQuiet_of_opened (openRule_session fs u)
    case closeSession =>
      cases e
      exact h.execute fun fs _ hu _ => closeRule_closedQuiet fs hu
    case linkStatus =>
      cases e
      refine h.execute_opened rfl fun fs u => ?_
      unfold linkStatusRule
      dsimp only
      split <;> rfl
    case restart =>
      cases e
      exact h.execute_opened rfl fun _ _ => rfl
  | false =>
    cases hany : c.anySession with
    | true =>
      cases c <;> simp only [ReqCode.anySession, ReqCode.changesPort, Bool.false_eq_true, Bool.true_eq_false] at hany hport
      case ping =>
        cases e
        exact h.execute fun _ _ hu _ => hu
      case identify =>
        cases e
        exact h.execute fun _ _ hu _ => hu
    | false =>
      obtain ⟨own, hexec, hrule⟩ := c.exec_rule
      rw [hexec] at e
      cases e
      exact h.execute_opened hany fun fs u => congrArg LinkPort.session ((hrule fs u).2 hport)

theorem State.ClosedQuiet.advance {s : State} (h : s.ClosedQuiet) (n : Nat) : (s.advance n).ClosedQuiet :=
  h.of rfl fun hs => hs.advance Axis.steady_quiet n

theorem State.ClosedQuiet.expire {s : State} (h : s.ClosedQuiet) {f : State → State}
    (hf : ∀ u, State.ClosedQuiet u → (f u).ClosedQuiet) (k : Option Timer) (late : Nat) :
    (s.expire k late f).ClosedQuiet := by
  rcases s.expire_cases k late f with e | ⟨u, -, -, e⟩ <;> rw [e]
  · exact h
  · exact hf _ (h.advance _)

/-- In a CLOSED session an edge of SENSE reaches the Capture Log alone; a HOME that it meets is not executed. -/
theorem State.ClosedQuiet.senseChange {s : State} (h : s.ClosedQuiet) (a : AxisId) (high : Bool) (order : List Block) :
    (s.senseChange a high order).ClosedQuiet := by
  have hlevel : (s.modifyAxis a (Axis.senseLevel high)).ClosedQuiet :=
    h.of rfl fun hs => hs.modifyAxis a (Axis.steady_quiet.pins _ _)
  have hhome : ((s.modifyAxis a (Axis.senseLevel high)).homeAtEdge order).ClosedQuiet := by
    unfold State.homeAtEdge
    split
    · exact hlevel.execute_opened rfl fun fs u => congrArg LinkPort.session (State.link_of_port (homeRule_port fs u))
    · exact hlevel
  unfold State.senseChange
  dsimp only
  split
  · rename_i r hm
    refine State.closedQuiet_iff.2 fun hs => ?_
    rw [State.link_of_port (State.homingSense_port ..)] at hs
    have hquiet := (State.closedQuiet_iff.1 hlevel hs a).not_homing
    rw [hm] at hquiet
    cases hquiet
  all_goals
    exact hhome.of (congrArg LinkPort.session (State.link_of_port (State.logSense_port ..)))
      fun hs => hs.take a fun hx => hx.capture ..

theorem LinkPort.alive_session (l : LinkPort) : l.alive.session = l.session := by
  unfold LinkPort.alive
  split
  · rfl
  · rfl

theorem LinkPort.takeEvent_session (e : LineEvent) (l : LinkPort) : (l.takeEvent e).session = l.session := by
  unfold LinkPort.takeEvent LinkPort.takeByte LinkPort.takeDamaged LinkPort.bodyTaken
  repeat' split
  all_goals rfl

theorem LinkPort.checkFrame_session (f : RxFrame) (l : LinkPort) : (l.checkFrame f).session = l.session := by
  unfold LinkPort.checkFrame LinkPort.joinIntake
  repeat' split
  iterate 3 exact l.alive_session
  rfl

theorem LinkPort.frameReceived_session (l : LinkPort) : l.frameReceived.session = l.session := by
  unfold LinkPort.frameReceived
  split
  · rfl
  · exact LinkPort.checkFrame_session ..

theorem LinkPort.beginReply_session (l : LinkPort) : l.beginReply.session = l.session := by
  unfold LinkPort.beginReply
  split <;> rfl

theorem LinkPort.answerRetry_session (l : LinkPort) : l.answerRetry.session = l.session := by
  unfold LinkPort.answerRetry
  repeat' split
  all_goals rfl

/-- A change of the Link Port that leaves the session as it is. -/
theorem State.ClosedQuiet.setLink {s : State} (h : s.ClosedQuiet) {l : LinkPort} (hl : l.session = s.link.session) :
    (s.setLink l).ClosedQuiet := h.of hl id

theorem State.ClosedQuiet.frameEnds {s : State} (h : s.ClosedQuiet) (st : Straps) : (s.frameEnds st).ClosedQuiet := by
  unfold State.frameEnds
  split
  · exact s.closedQuiet_resetTo _ _ _
  all_goals exact h.setLink rfl

/-- A link loss, or the reset behind it, leaves every axis quiet. -/
theorem State.closedQuiet_linkLoss (s : State) (order : List Block) (st : Straps) :
    ((s.linkLoss order).restartAfterLoss st).ClosedQuiet := by
  obtain ⟨haxis, -⟩ := s.linkLoss_eq order
  have hquiet : (s.linkLoss order).ClosedQuiet := State.closedQuiet_iff.2 fun _ a => by
    rw [haxis]
    exact Axis.quiet_linkLost ..
  unfold State.restartAfterLoss
  split
  · exact State.closedQuiet_resetTo _ _ _ _
  all_goals exact hquiet

/-- Every command keeps the axes of a CLOSED session quiet. -/
theorem exec_closedQuiet (i : Instr) {s t : State} (h : s.ClosedQuiet) (e : exec i s = .next t) : t.ClosedQuiet := by
  cases Instr.kind i with
  | request c => exact c.exec_closedQuiet h e
  | axisEvent hi =>
    obtain ⟨-, n, hlink⟩ := exec_axisEvent hi e
    exact h.of ((congrArg LinkPort.session hlink).trans rfl) fun hs => exec_axisEvent_quiet hi hs e
  | senseEdge a high order =>
    cases e
    split
    · exact h
    · exact h.senseChange a high order
  | unknownRequestCode =>
    cases e
    rcases s.executeUnknown_cases with e | ⟨r, -, e⟩ <;> rw [e]
    · exact h
    · exact h
  | retryFromCache =>
    cases e
    exact h.setLink s.link.answerRetry_session
  | byteReceived ev =>
    cases e
    exact h.setLink (s.link.takeEvent_session ev)
  | frameGapExpiry late =>
    cases e
    refine h.expire (fun u hu => ?_) _ late
    exact hu.setLink rfl
  | frameReceived =>
    cases e
    exact h.setLink s.link.frameReceived_session
  | replyFrameStart =>
    cases e
    exact h.setLink s.link.beginReply_session
  | noticeFrameStart =>
    cases e
    split
    · exact h
    · exact State.ClosedQuiet.setLink (s := s.setNotices _) h rfl
  | frameEnd moment =>
    cases e
    exact h.expire (fun _ hu => hu.frameEnds moment.straps) _ moment.late
  | keepaliveExpiry order moment =>
    cases e
    refine h.expire (fun u hu => ?_) _ moment.late
    split
    · exact hu
    · exact u.closedQuiet_linkLoss order moment.straps
  | reset pins =>
    cases e
    exact s.closedQuiet_resetTo _ _ _

/-- Settles O12: a step runs a command, which keeps the axes of a CLOSED session quiet (`exec_closedQuiet`), or lets time
pass. -/
theorem stepsKeepTheClosedSessionQuiet : Obligations.StepsKeepTheClosedSessionQuiet :=
  keptByStep_of_exec (fun i _ _ h e => exec_closedQuiet i h e) (fun _ _ h => h) (fun _ h => h.advance 1000)

end Sys2Proof.Machine
end

section
namespace Sys2Proof.Machine

/-! ### Power-up -/

/-- Power-up is a reset of a part that is in its reset state already. -/
theorem State.reset_eq : State.reset = State.reset.resetTo .power ⟨false, false⟩ false := by decide

theorem State.reset_timers : State.reset.timers = [] := by decide

/-- A reset leaves every store empty. -/
theorem State.capacitiesOk_resetTo (s : State) (c : Cause) (st : Straps) (held : Bool) :
    (s.resetTo c st held).CapacitiesOk :=
  State.capacitiesOk_iff.2 ⟨fun a => by rw [State.resetTo_axis]; exact Axis.capacityOk_resetTo .., Nat.zero_le _,
    .nil, .nil, .nil, .nil⟩

theorem State.keysOk_resetTo (s : State) (c : Cause) (st : Straps) (held : Bool) : (s.resetTo c st held).KeysOk where
  stations := List.forall_mem_nil _
  profiles := List.forall_mem_nil _
  windows := List.forall_mem_nil _
  guards := List.forall_mem_nil _

theorem State.linesOk_resetTo (s : State) (c : Cause) (st : Straps) (held : Bool) : (s.resetTo c st held).LinesOk :=
  fun a => by
    rw [State.resetTo_axis]
    exact Axis.linesOk_resetTo ..

/-- Settles O7: each invariant holds behind every reset, and power-up is one (`State.reset_eq`); no timer runs then. -/
theorem invariantsHoldAtReset : Obligations.InvariantsHoldAtReset := by
  have htimers : State.reset.TimersOk := ⟨Nat.zero_lt_succ _, by rw [State.reset_timers]; exact List.forall_mem_nil _⟩
  refine ⟨NoticeQueue.reset_ok _, LinkPort.ok_reset .., ?_, ?_, ?_, ?_, ?_, htimers⟩ <;> rw [State.reset_eq]
  · exact State.linesOk_resetTo _ _ _ _
  · exact State.windowsOk_resetTo ..
  · exact State.closedQuiet_resetTo _ _ _ _
  · exact State.capacitiesOk_resetTo ..
  · exact State.keysOk_resetTo ..

end Sys2Proof.Machine
end

section
namespace Sys2Proof.Machine

/-! ### The framer -/

theorem LinkPort.takeEvent_low {l : LinkPort} (h : l.resetnLow = true) (e : LineEvent) : l.takeEvent e = l := by
  unfold LinkPort.takeEvent
  rw [if_pos h]

theorem LinkPort.takeEvent_byte {l : LinkPort} (h : l.resetnLow = false) (b : Byte) :
    l.takeEvent (.byte b) = l.takeByte b := by
  unfold LinkPort.takeEvent
  rw [if_neg (ne_true_of_eq_false h)]

/-- A break acts as one damaged byte (notes/assumptions/25.md). -/
theorem LinkPort.takeEvent_damaged {l : LinkPort} (h : l.resetnLow = false) {e : LineEvent}
    (he : e = .damaged ∨ e = .breakSignal) : l.takeEvent e = l.takeDamaged := by
  unfold LinkPort.takeEvent
  rw [if_neg (ne_true_of_eq_false h)]
  rcases he with rfl | rfl <;> rfl

theorem LinkPort.countFormat_eq (l : LinkPort) :
    l.countFormat = { l with counters := { l.counters with format := min 65535 (l.counters.format + 1) } } := by
  rw [← saturate_eq]
  rfl

theorem LinkPort.countGap_eq (l : LinkPort) :
    l.countGap = { l with counters := { l.counters with gap := min 65535 (l.counters.gap + 1) } } := by
  rw [← saturate_eq]
  rfl

theorem LinkPort.countCrc_eq (l : LinkPort) :
    l.countCrc = { l with counters := { l.counters with crc := min 65535 (l.counters.crc + 1) } } := by
  rw [← saturate_eq]
  rfl

theorem LinkPort.countDropped_eq (l : LinkPort) :
    l.countDropped = { l with counters := { l.counters with dropped := min 65535 (l.counters.dropped + 1) } } := by
  rw [← saturate_eq]
  rfl

section
variable {l : LinkPort} {b : Byte}

theorem LinkPort.takeByte_sync (h : l.framer = .hunt) (hb : b = 0x5A) :
    l.takeByte b = { l with framer := .length ⟨5, 0⟩ } := by
  unfold LinkPort.takeByte
  rw [h]
  exact if_pos hb

theorem LinkPort.takeByte_noise (h : l.framer = .hunt) (hb : b ≠ 0x5A) : l.takeByte b = l := by
  unfold LinkPort.takeByte
  rw [h]
  exact if_neg hb

theorem LinkPort.takeByte_len {g : Timer} (h : l.framer = .length g) (hb : 3 ≤ b.toNat ∧ b.toNat ≤ 200) :
    l.takeByte b = { l with framer := .body b [] ⟨5, 0⟩ } := by
  unfold LinkPort.takeByte
  rw [h]
  exact if_pos hb

theorem LinkPort.takeByte_badLen {g : Timer} (h : l.framer = .length g) (hb : b.toNat < 3 ∨ 200 < b.toNat) :
    l.takeByte b =
      { l with
        framer := .hunt
        counters := { l.counters with format := min 65535 (l.counters.format + 1) } } := by
  unfold LinkPort.takeByte
  rw [h]
  refine (if_neg fun hc => ?_).trans (LinkPort.countFormat_eq _)
  dsimp only [Config.minBody, Config.maxBody] at hc
  omega

theorem LinkPort.takeByte_body {len : Byte} {taken : List Byte} {g : Timer} (h : l.framer = .body len taken g)
    (hmore : taken.length + 1 < len.toNat + 2) :
    l.takeByte b = { l with framer := .body len (taken ++ [b]) ⟨5, 0⟩ } := by
  unfold LinkPort.takeByte
  rw [h]
  refine if_pos ?_
  rwa [List.length_append]

/-- The second CRC byte completes a frame: what stands before the two CRC bytes is its body. -/
theorem LinkPort.takeByte_last {len high : Byte} {body : List Byte} {g : Timer}
    (h : l.framer = .body len (body ++ [high]) g) (hbody : body.length = len.toNat) :
    l.takeByte b = { l with framer := .hunt, completed := l.completed ++ [⟨len, body, high, b⟩] } := by
  have hbytes : body ++ [high] ++ [b] = body ++ [high, b] := by simp
  have hfull : ¬ (body ++ [high, b]).length < len.toNat + 2 := by
    rw [List.length_append, hbody]
    exact Nat.lt_irrefl _
  unfold LinkPort.takeByte
  rw [h]
  dsimp only
  rw [hbytes]
  unfold LinkPort.bodyTaken
  rw [if_neg hfull, ← hbody]
  simp

end

theorem LinkPort.takeDamaged_hunt {l : LinkPort} (h : l.framer = .hunt) : l.takeDamaged = l := by
  unfold LinkPort.takeDamaged
  rw [h]

theorem LinkPort.takeDamaged_inFrame {l : LinkPort} (h : l.framer ≠ .hunt) :
    l.takeDamaged =
      { l with
        framer := .hunt
        counters := { l.counters with format := min 65535 (l.counters.format + 1) } } := by
  unfold LinkPort.takeDamaged
  cases hf : l.framer with
  | hunt => exact absurd hf h
  | length | body => exact LinkPort.countFormat_eq _

/-- What comes on RXD changes the Link Port alone. -/
theorem exec_byteReceived {s : State} {e : LineEvent} {l : LinkPort} (h : s.link.takeEvent e = l) :
    exec (.byteReceived e) s = .next { s with link := l } := by
  rw [← h]
  rfl

/-- Settles O15: `LinkPort.takeByte` by where the framer stands, and the expiry of the gap timer. -/
theorem receiverFollowsTheFramer : Obligations.ReceiverFollowsTheFramer := by
  refine ⟨fun s e hlow => exec_byteReceived (LinkPort.takeEvent_low hlow e), fun s b hhigh => ?_,
    fun s e hhigh he => ?_, fun s late g hgap hrun => ?_⟩
  · have hexec {l : LinkPort} (h : s.link.takeByte b = l) :
        exec (.byteReceived (.byte b)) s = .next { s with link := l } :=
      exec_byteReceived ((LinkPort.takeEvent_byte hhigh b).trans h)
    exact ⟨fun h hb => hexec (LinkPort.takeByte_sync h hb), fun h hb => hexec (LinkPort.takeByte_noise h hb),
      fun _ h hmin hmax => hexec (LinkPort.takeByte_len h ⟨hmin, hmax⟩),
      fun _ h hb => hexec (LinkPort.takeByte_badLen h hb), fun _ _ _ h hmore => hexec (LinkPort.takeByte_body h hmore),
      fun _ _ _ _ h hbody => hexec (LinkPort.takeByte_last h hbody)⟩
  · have hexec {l : LinkPort} (h : s.link.takeDamaged = l) : exec (.byteReceived e) s = .next { s with link := l } :=
      exec_byteReceived ((LinkPort.takeEvent_damaged hhigh he).trans h)
    exact ⟨fun h => hexec (LinkPort.takeDamaged_hunt h), fun h => hexec (LinkPort.takeDamaged_inFrame h)⟩
  · show Host.Outcome.next (s.expire s.link.framer.gap late _) = _
    rw [hgap, State.expire_some hrun, LinkPort.countGap_eq]
    rfl

/-! ### A complete frame -/

theorem RxFrame.good_iff {f : RxFrame} :
    f.good = true ↔ crc16 (f.len :: f.body) = f.crcHigh.setWidth 16 <<< 8 ||| f.crcLow.setWidth 16 :=
  decide_eq_true_iff

theorem requestOf_eq (kind tag code : Byte) (area : List Byte) :
    requestOf (kind :: tag :: code :: area) =
      if kind = 1 ∨ kind = 2 then some ⟨decide (kind = 2), tag, code, area⟩ else none := by
  unfold requestOf
  dsimp only
  by_cases h1 : kind = 1
  · subst h1
    rfl
  · by_cases h2 : kind = 2
    · subst h2
      rfl
    · rw [if_neg h1, if_neg h2, if_neg (not_or.2 ⟨h1, h2⟩)]

/-- A good frame starts the keepalive of an OPEN session again, and changes nothing else (R186). -/
theorem LinkPort.alive_eq (l : LinkPort) :
    l.alive =
      { l with
        keepalive :=
          if l.session = .opened then l.keepalive.map (fun t => ⟨t.duration, 0⟩) else l.keepalive } := by
  unfold LinkPort.alive
  split
  · rename_i hs
    rw [if_neg (by rw [hs]; nofun)]
  · rename_i hs
    rw [if_pos hs]
    rfl

theorem LinkPort.joinIntake_room {l : LinkPort} (h : l.intake.length < 4) (r : Request) :
    l.joinIntake r = { l with intake := l.intake ++ [r] } := if_pos h

theorem LinkPort.joinIntake_full {l : LinkPort} (h : 4 ≤ l.intake.length) (r : Request) :
    l.joinIntake r = { l with counters := { l.counters with dropped := min 65535 (l.counters.dropped + 1) } } :=
  (if_neg (Nat.not_lt.2 h)).trans l.countDropped_eq

theorem LinkPort.checkFrame_bad {f : RxFrame} (h : f.good = false) (l : LinkPort) : l.checkFrame f = l.countCrc :=
  if_neg (ne_true_of_eq_false h)

theorem LinkPort.checkFrame_request {f : RxFrame} (h : f.good = true) {r : Request} (hr : requestOf f.body = some r)
    (l : LinkPort) : l.checkFrame f = l.alive.joinIntake r := by
  unfold LinkPort.checkFrame
  rw [if_pos h, hr]

theorem LinkPort.checkFrame_other {f : RxFrame} (h : f.good = true) (hr : requestOf f.body = none) (l : LinkPort) :
    l.checkFrame f = l.alive.countFormat := by
  unfold LinkPort.checkFrame
  rw [if_pos h, hr]

/-- The oldest complete frame is checked by the Link Port behind it. -/
theorem exec_frameReceived {s : State} {f : RxFrame} {rest : List RxFrame} (h : s.link.completed = f :: rest)
    {l : LinkPort} (hl : ({ s.link with completed := rest } : LinkPort).checkFrame f = l) :
    exec .frameReceived s = .next { s with link := l } := by
  show Host.Outcome.next (s.setLink s.link.frameReceived) = _
  unfold LinkPort.frameReceived
  rw [h]
  dsimp only
  rw [hl]
  rfl

/-- Settles O16: `LinkPort.checkFrame` for a bad CRC, and for a good frame by its KIND and the room in the intake. -/
theorem framesAreCheckedByTheirCrc : Obligations.FramesAreCheckedByTheirCrc := by
  refine ⟨by decide +kernel, fun s f rest hframe => ?_⟩
  intro good alive c
  refine ⟨fun hbad => exec_frameReceived hframe ?_, fun hgood kind tag code area hbody => ?_⟩
  · rw [LinkPort.checkFrame_bad (Bool.eq_false_iff.2 (mt RxFrame.good_iff.1 hbad)), LinkPort.countCrc_eq]
  · have hgood := RxFrame.good_iff.2 hgood
    let v : LinkPort := { s.link with completed := rest, keepalive := alive }
    have halive : ({ s.link with completed := rest } : LinkPort).alive = v := LinkPort.alive_eq _
    have hrequest := hbody ▸ requestOf_eq kind tag code area
    refine ⟨fun hkind hroom => exec_frameReceived hframe ?_, fun hkind hfull => exec_frameReceived hframe ?_,
      fun h1 h2 => exec_frameReceived hframe ?_⟩
    · rw [LinkPort.checkFrame_request hgood (hrequest.trans (if_pos hkind)), halive]
      exact LinkPort.joinIntake_room (l := v) hroom _
    · rw [LinkPort.checkFrame_request hgood (hrequest.trans (if_pos hkind)), halive]
      exact LinkPort.joinIntake_full (l := v) hfull _
    · rw [LinkPort.checkFrame_other hgood (hrequest.trans (if_neg (not_or.2 ⟨h1, h2⟩))), halive]
      exact v.countFormat_eq

end Sys2Proof.Machine
end

section
namespace Sys2Proof.Machine

/-! ### Steps 2 and 3 of the general checks -/

theorem ReqCode.anySession_iff {c : ReqCode} :
    c.anySession = true ↔ c = .openSession ∨ c = .identify ∨ c = .ping := by
  cases c <;> decide

/-- A CLOSED session lets a request of good format pass only when it is OPEN, IDENTIFY or PING. -/
theorem ReqCode.check_notOpen {c : ReqCode} {area : List Byte} {fs : List Field} (hread : c.read area = .good fs)
    (hall : ∀ f ∈ c.requiredNow fs, carries fs f = true) (hpresence : c.presence fs = none) (hc : c.anySession = false) :
    c.check .closed area = .refused (.bare .notOpen) := by
  unfold ReqCode.check
  rw [hread]
  dsimp only
  rw [find_carries_none.2 hall]
  dsimp only
  rw [hpresence]
  exact if_pos ⟨rfl, hc⟩

/-- Of a request that the session lets pass, the first value out of its range is refused. -/
theorem ReqCode.check_badValue {c : ReqCode} {area : List Byte} {fs : List Field} {e : Field}
    (hread : c.read area = .good fs) (hall : ∀ f ∈ c.requiredNow fs, carries fs f = true)
    (hpresence : c.presence fs = none) {ses : Session} (hses : ¬ (ses = .closed ∧ c.anySession = false))
    (hbad : fs.find? (fun e => !e.1.inRange c e.2) = some e) :
    c.check ses area = .refused (.detail .badValue e.1.code) := by
  unfold ReqCode.check
  rw [hread]
  dsimp only
  rw [find_carries_none.2 hall]
  dsimp only
  rw [hpresence]
  dsimp only
  rw [if_neg hses, hbad]

/-- The first value out of its range is found behind the good ones. -/
theorem find_badValue {c : ReqCode} {good rest : List Field} {f : FieldId} {v : Int}
    (hgood : ∀ e ∈ good, e.1.inRange c e.2 = true) (hbad : f.inRange c v = false) :
    (good ++ (f, v) :: rest).find? (fun e => !e.1.inRange c e.2) = some (f, v) := by
  have hnone : good.find? (fun e => !e.1.inRange c e.2) = none :=
    List.find?_eq_none.2 fun e he => by simp [hgood e he]
  rw [List.find?_append, hnone, Option.none_or]
  exact List.find?_cons_of_pos (by simp [hbad])

/-! ### The ranges of the fields -/

theorem inRange_zeroOr {lo hi v : Int} : (v == 0 || within lo hi v) = true ↔ v = 0 ∨ lo ≤ v ∧ v ≤ hi := by
  rw [Bool.or_eq_true, beq_iff_eq, within_iff]

/-- Settles O19: steps 2 and 3 of the general checks (`ReqCode.check_notOpen`, `ReqCode.check_badValue`), and the
ranges read off `FieldId.inRange`. -/
theorem sessionAndValueErrorsAreAnswered : Obligations.SessionAndValueErrorsAreAnswered := by
  refine ⟨fun c s r fs hdue hread hall hpresence hclosed hopen hidentify hping => ?_,
    fun c s r good rest f v hdue hread hall hpresence hsession hgood hbad => ?_, fun c v => ?_⟩
  · have hany : c.anySession = false := Bool.eq_false_iff.2 fun h => by
      rcases ReqCode.anySession_iff.1 h with h | h | h
      · exact hopen h
      · exact hidentify h
      · exact hping h
    refine ReqCode.exec_refused hdue ?_
    rw [hclosed]
    exact ReqCode.check_notOpen hread hall hpresence hany
  · have hpass : ¬ (s.link.session = .closed ∧ c.anySession = false) := by
      rintro ⟨hclosed, hany⟩
      rcases hsession with h | h
      · rw [hclosed] at h
        cases h
      · rw [ReqCode.anySession_iff.2 h] at hany
        cases hany
    exact ReqCode.exec_refused hdue
      (ReqCode.check_badValue hread hall hpresence hpass (find_badValue hgood hbad))
  · intro ranges zeroOr
    have field {lo hi : Int} {fs : List FieldId} (h : ∀ f ∈ fs, f.inRange c v = within lo hi v) : ranges lo hi fs :=
      fun f hf => by rw [h f hf, within_iff]
    have hall : ranges 1 1 [.all] := by
      refine List.forall_mem_singleton.2 ((beq_iff_eq (a := v) (b := 1)).trans ?_)
      omega
    have htime : (c = .home → ranges 1 600 [.timeLimit]) ∧ (c ≠ .home → ranges 0 3600 [.timeLimit]) :=
      ⟨fun h => field (List.forall_mem_singleton.2 (if_pos h)), fun h => field (List.forall_mem_singleton.2 (if_neg h))⟩
    refine ⟨field ?_, field ?_, field ?_, field ?_, hall, field ?_, field ?_, field ?_, field ?_, field ?_,
      field ?_, field ?_, field ?_, field ?_, field ?_, field ?_, field ?_, field ?_, field ?_, field ?_, field ?_,
      field ?_, field ?_, field ?_, field ?_, htime.1, htime.2, inRange_zeroOr, inRange_zeroOr, inRange_zeroOr⟩
    all_goals simp [FieldId.inRange]

/-! ### What is due -/

/-- A request is answered from the cache when it is a RETRY with a cached TAG (R183). -/
theorem LinkPort.fromCache_eq_false_iff {l : LinkPort} {r : Request} :
    l.fromCache r = false ↔ (r.retry = true → ∀ p ∈ l.cache, p.tag ≠ r.tag) := by
  rw [← LinkPort.cached_eq_none_iff]
  unfold LinkPort.fromCache
  cases r.retry <;> cases l.cached r.tag <;> simp

theorem State.dueRequest_eq_some_iff {s : State} {c : Option ReqCode} {r : Request} :
    s.dueRequest c = some r ↔
      (∃ rest, s.link.intake = r :: rest) ∧ s.link.executes = true ∧ s.link.fromCache r = false ∧
        ReqCode.ofByte r.code = c := by
  refine ⟨State.dueRequest_some, fun ⟨⟨rest, hintake⟩, hexecutes, hcache, hcode⟩ => ?_⟩
  unfold State.dueRequest
  rw [hintake]
  exact if_pos (by simp [hexecutes, hcache, hcode])

/-- The one cached reply with a tag. -/
theorem LinkPort.cached_eq {l : LinkPort} (hn : (l.cache.map (·.tag)).Nodup) {p : Reply} (hp : p ∈ l.cache) :
    l.cached p.tag = some p := by
  cases hx : l.cached p.tag with
  | none => exact absurd rfl (LinkPort.cached_eq_none_iff.1 hx p hp)
  | some q =>
    have htag : q.tag = p.tag := beq_iff_eq.1 (List.find?_some (p := fun r : Reply => r.tag == p.tag) hx)
    rw [List.inj_on_of_nodup_map hn (List.mem_of_find?_eq_some hx) hp htag]

/-- A RETRY answered from the cache: the request goes, a copy of the reply joins, the cache stays (R183). -/
theorem LinkPort.answerRetry_copies {l : LinkPort} {r : Request} {rest : List Request} {p : Reply}
    (hintake : l.intake = r :: rest) (hretry : r.retry = true) (hcached : l.cached r.tag = some p)
    (hexecutes : l.executes = true) : l.answerRetry = { l with intake := rest, replies := l.replies ++ [p] } := by
  unfold LinkPort.answerRetry LinkPort.popIntake
  rw [hintake]
  dsimp only
  rw [hcached]
  exact if_pos (Bool.and_eq_true_iff.2 ⟨hexecutes, hretry⟩)

/-! ### An uncached RETRY -/

theorem State.execute_due {s : State} {c : ReqCode} {r : Request} (h : s.dueRequest (some c) = some r)
    (own : List Field → State → Answer × State) :
    s.execute c own = State.reply r.tag ((s.setLink s.link.popIntake).serve c r.area own) := by
  unfold State.execute
  rw [h]

theorem State.executeUnknown_due {s : State} {r : Request} (h : s.dueRequest none = some r) :
    s.executeUnknown = State.reply r.tag (.bare .badFormat, s.setLink s.link.popIntake) := by
  unfold State.executeUnknown
  rw [h]

/-- The state in which the oldest request is the same one of kind REQUEST. -/
def State.asRequest (s : State) (r : Request) (rest : List Request) : State :=
  { s with link := { s.link with intake := { r with retry := false } :: rest } }

theorem State.asRequest_popIntake {s : State} {r : Request} {rest : List Request} (h : s.link.intake = r :: rest) :
    (s.asRequest r rest).setLink (s.asRequest r rest).link.popIntake = s.setLink s.link.popIntake := by
  unfold LinkPort.popIntake
  rw [h]
  rfl

/-- A RETRY that is due is due as a REQUEST too. -/
theorem State.asRequest_due {s : State} {c : Option ReqCode} {r : Request} (rest : List Request)
    (h : s.dueRequest c = some r) : (s.asRequest r rest).dueRequest c = some { r with retry := false } := by
  obtain ⟨-, hexecutes, -, hcode⟩ := State.dueRequest_some h
  exact State.dueRequest_eq_some_iff.2 ⟨⟨rest, rfl⟩, hexecutes, rfl, hcode⟩

/-- Settles O20: `cacheWrite_eq`, the branches of `LinkPort.answerRetry` and `State.dueRequest`; an execution does not read
the kind of the request that is due. -/
theorem replyCacheAnswersRetries : Obligations.ReplyCacheAnswersRetries := by
  refine ⟨fun cache r hlen hn => ⟨cacheWrite_length hlen r, cacheWrite_nodup hlen hn r, cacheWrite_eq hlen r⟩,
    fun s r rest p hintake hretry hp htag hn hroom hfree => ?_, fun s c r => ?_, fun s c r rest hintake _ hdue => ?_⟩
  · have hcached : s.link.cached r.tag = some p := htag ▸ LinkPort.cached_eq hn hp
    exact congrArg (fun l => Host.Outcome.next (s.setLink l))
      (LinkPort.answerRetry_copies hintake hretry hcached (LinkPort.executes_iff.2 ⟨hroom, hfree⟩))
  · intro named
    have hnamed : ReqCode.ofByte r.code = c ↔ named := by
      cases c with
      | some k => exact ReqCode.ofByte_some
      | none => exact ReqCode.ofByte_none
    rw [State.dueRequest_eq_some_iff, LinkPort.executes_iff, LinkPort.fromCache_eq_false_iff, hnamed]
    tauto
  · have hdue' := State.asRequest_due rest hdue
    have hpop := State.asRequest_popIntake hintake
    cases c with
    | none =>
      refine congrArg Host.Outcome.next ((State.executeUnknown_due hdue).trans ?_)
      rw [← hpop]
      exact (State.executeUnknown_due hdue').symm
    | some k =>
      obtain ⟨own, hexec, -⟩ := k.exec_rule
      refine (hexec s).trans ((congrArg Host.Outcome.next ?_).trans (hexec (s.asRequest r rest)).symm)
      rw [State.execute_due hdue, State.execute_due hdue', hpop]

end Sys2Proof.Machine
end

section
namespace Sys2Proof.Machine

/-! ### OPEN and CLOSE -/

/-- KEEPALIVE of an OPEN that is served is no negative number. -/
theorem Serves.keepalive_nonneg {s : State} {r : Request} {fs : List Field} (h : Serves s .openSession r fs) :
    0 ≤ fieldInt fs .keepalive := by
  obtain ⟨v, -, hv, hin⟩ := h.required (f := .keepalive) (by decide)
  rw [hv]
  rcases inRange_zeroOr.1 hin with h0 | ⟨hlo, -⟩ <;> omega

theorem LinkPort.opens_eq {fs : List Field} (h : 0 ≤ fieldInt fs .keepalive) (l : LinkPort) :
    l.opens (fieldNat fs .keepalive) =
      { l with
        session := .opened
        cache := []
        keepalive := if fieldInt fs .keepalive = 0 then none else some ⟨(fieldInt fs .keepalive).toNat, 0⟩ } := by
  have hzero : fieldNat fs .keepalive = 0 ↔ fieldInt fs .keepalive = 0 := by
    unfold fieldNat
    omega
  unfold LinkPort.opens
  simp only [hzero]
  rfl

theorem openRule_closed {fs : List Field} {s : State} (h : s.link.session = .closed) :
    openRule fs s =
      (.ok [(.keepalive, fieldInt fs .keepalive), (.queued, s.notices.entries.length)],
        s.setLink (s.link.opens (fieldNat fs .keepalive))) := by
  unfold openRule
  rw [h]

theorem openRule_opened {fs : List Field} {s : State} (h : s.link.session = .opened) :
    openRule fs s = (.bare .wrongState, s) := by
  unfold openRule
  rw [h]

/-- CLOSE holds a queue that could start (R187). -/
theorem Axis.holdQueue_holds {x : Axis} (hm : x.motion = .idle ∨ x.motion = .waiting) (hq : x.queue ≠ []) :
    x.holdQueue = { x with motion := .held, holdPending := false } := if_pos ⟨hm, hq⟩

theorem Axis.holdQueue_keeps {x : Axis} (h : x.motion ≠ .idle ∧ x.motion ≠ .waiting ∨ x.queue = []) :
    x.holdQueue = x := by
  refine if_neg fun hc => ?_
  obtain ⟨hm, hq⟩ := hc
  rcases h with ⟨hidle, hwaiting⟩ | h
  · exact hm.elim hidle hwaiting
  · exact hq h

/-- Settles O23: the two branches of `openRule` and of `closeRule`, and `Axis.holdQueue` on every axis. -/
theorem openAndCloseChangeTheSession : Obligations.OpenAndCloseChangeTheSession := by
  refine ⟨fun s r fs h => ?_, fun s r fs h => ⟨fun hmoving => ?_, fun hstill => ?_⟩⟩
  · intro ans
    refine ⟨fun hclosed => congrArg Host.Outcome.next ?_, fun hopened => congrArg Host.Outcome.next ?_⟩
    · rw [State.execute_serves s _ r fs _ h, openRule_closed (s := s.setLink s.link.popIntake) hclosed,
        LinkPort.opens_eq h.keepalive_nonneg]
      rfl
    · exact h.executes (t := s) (openRule_opened hopened) rfl
  · exact congrArg Host.Outcome.next (h.executes (t := s) (if_pos (State.anyInMotion_iff.2 hmoving)) rfl)
  · have hrule : closeRule fs (s.setLink s.link.popIntake) = (.ok [], (s.setLink s.link.popIntake).close) :=
      if_neg (ne_true_of_eq_false (State.not_anyInMotion.2 hstill))
    refine ⟨_, congrArg Host.Outcome.next ((State.execute_serves s _ r fs _ h).trans (congrArg (State.reply r.tag) hrule)),
      rfl, rfl, rfl, rfl, rfl, rfl, fun a => ?_⟩
    have haxis : (State.reply r.tag (.ok [], (s.setLink s.link.popIntake).close)).axis a = (s.axis a).holdQueue :=
      State.close_axis (s.setLink s.link.popIntake) a
    rw [haxis]
    exact ⟨Axis.holdQueue_holds, Axis.holdQueue_keeps⟩

/-! ### PING, IDENTIFY, LINK-STATUS, RESTART -/

/-- While a RESTART is pending no request is due (R191). -/
theorem State.dueRequest_restarting {s : State} (h : s.link.restart ≠ .none) (c : Option ReqCode) :
    s.dueRequest c = none := by
  cases hdue : s.dueRequest c with
  | none => rfl
  | some r =>
    obtain ⟨-, hexecutes, -, -⟩ := State.dueRequest_some hdue
    exact absurd (LinkPort.executes_iff.1 hexecutes).2 h

/-- Settles O24: the four rules on the state without the request. -/
theorem linkPortAnswersItsOwnRequests : Obligations.LinkPortAnswersItsOwnRequests := by
  refine ⟨fun s r fs => ⟨fun h => ?_, fun h => ?_⟩, fun s r fs h => ?_, fun s r fs h => ?_⟩
  · exact congrArg Host.Outcome.next (h.executes (t := s) rfl rfl)
  · exact congrArg Host.Outcome.next (h.executes (t := s) rfl rfl)
  · intro c t
    refine ⟨fun hclear => congrArg Host.Outcome.next ?_, fun hclear => congrArg Host.Outcome.next ?_⟩
    · exact h.executes (t := s) (congrArg (Prod.mk _) (if_neg hclear)) rfl
    · exact (State.execute_serves s _ r fs _ h).trans
        (congrArg (fun u => State.reply r.tag (_, u)) (if_pos hclear))
  · intro t
    exact ⟨congrArg Host.Outcome.next (State.execute_serves s _ r fs _ h), State.dueRequest_restarting nofun⟩

end Sys2Proof.Machine
end

section
namespace Sys2Proof.Machine

/-! ### Field areas in order -/

/-- Fields in order are read as what their bytes carry; a bound of their number is enough (R195). -/
theorem readFields_inOrder {c : ReqCode} {seen : List FieldId} {es : List (FieldId × List Byte)}
    (h : c.InOrder seen es) {n : Nat} (hn : es.length ≤ n) :
    readFields c n seen (es.flatMap fieldBytes) = .good (es.map fun e => (e.1, e.1.decode e.2)) := by
  induction es generalizing seen n with
  | nil => cases n <;> rfl
  | cons e es ih =>
    obtain ⟨hfits, horder⟩ := h
    cases n with
    | zero => exact absurd hn (Nat.not_succ_le_zero _)
    | succ n =>
      rw [List.flatMap_cons, readFields_fits hfits, ih horder (Nat.le_of_succ_le_succ hn)]
      rfl

/-- Every field takes bytes of the area, so that the length of the area bounds the number of fields. -/
theorem length_le_flatMap_fieldBytes (es : List (FieldId × List Byte)) : es.length ≤ (es.flatMap fieldBytes).length := by
  induction es with
  | nil => exact le_rfl
  | cons e es ih =>
    rw [List.flatMap_cons, List.length_append, List.length_cons, fieldBytes, List.length_cons]
    omega

/-- A field area in order is read as what its bytes carry (R178 step 1, R195). -/
theorem ReqCode.read_inOrder {c : ReqCode} {es : List (FieldId × List Byte)} (h : c.InOrder [] es) :
    c.read (es.flatMap fieldBytes) = .good (es.map fun e => (e.1, e.1.decode e.2)) :=
  readFields_inOrder h (length_le_flatMap_fieldBytes es)

/-! ### The bytes of a value -/

theorem length_bytesOf (n v : Nat) : (bytesOf n v).length = n := by
  induction n generalizing v with
  | zero => rfl
  | succ n ih => exact congrArg Nat.succ (ih _)

/-- The lowest n bytes of a number, low byte first, carry it modulo 256 to the n. -/
theorem littleEndian_bytesOf (n v : Nat) : littleEndian (bytesOf n v) = v % 256 ^ n := by
  induction n generalizing v with
  | zero => exact (Nat.mod_one v).symm
  | succ n ih =>
    calc littleEndian (bytesOf (n + 1) v)
      _ = v % 256 + 256 * littleEndian (bytesOf n (v / 256)) := rfl
      _ = v % 256 + 256 * (v / 256 % 256 ^ n) := by rw [ih]
      _ = v % 256 ^ (n + 1) := by rw [pow_succ', Nat.mod_mul]

/-- The bytes of a word carry the word. -/
theorem littleEndian_word {n : Nat} (x : BitVec (8 * n)) : littleEndian (bytesOf n x.toNat) = x.toNat := by
  rw [littleEndian_bytesOf]
  refine Nat.mod_eq_of_lt ?_
  calc x.toNat
    _ < 2 ^ (8 * n) := x.isLt
    _ = 256 ^ n := pow_mul 2 8 n

theorem FieldId.size_pos (f : FieldId) : 0 < f.size := by
  cases f <;> decide

/-- The bytes of a field's value on the line, a negative value in two's complement (R195). -/
def Field.valueBytes (e : Field) : List Byte := bytesOf e.1.size (BitVec.ofInt (8 * e.1.size) e.2).toNat

/-- A field with its value as it stands in a field area. -/
def Field.asBytes (e : Field) : FieldId × List Byte := (e.1, e.valueBytes)

theorem encodeField_eq_fieldBytes (e : Field) : encodeField e = fieldBytes e.asBytes := rfl

theorem Field.length_valueBytes (e : Field) : e.valueBytes.length = e.1.size := length_bytesOf ..

/-- A signed field carries every value of its length in two's complement. -/
theorem Field.decode_valueBytes_signed {e : Field} (hs : e.1.signed = true)
    (hlo : -(2 ^ (8 * e.1.size - 1) : Int) ≤ e.2) (hhi : e.2 < 2 ^ (8 * e.1.size - 1)) :
    e.1.decode e.valueBytes = e.2 := by
  have hwidth : 0 < 8 * e.1.size := Nat.mul_pos (by decide) e.1.size_pos
  rw [FieldId.decode, if_pos hs, Field.valueBytes, littleEndian_word, BitVec.ofNat_toNat, BitVec.setWidth_eq,
    BitVec.toInt_ofInt_eq_self hwidth hlo hhi]

/-- An unsigned field carries every value of its length. -/
theorem Field.decode_valueBytes_unsigned {e : Field} (hs : e.1.signed = false) (hlo : 0 ≤ e.2)
    (hhi : e.2 < 2 ^ (8 * e.1.size)) : e.1.decode e.valueBytes = e.2 := by
  rw [FieldId.decode, if_neg (ne_true_of_eq_false hs), Field.valueBytes, littleEndian_word, BitVec.toNat_ofInt,
    Int.toNat_of_nonneg (Int.emod_nonneg _ (by positivity))]
  exact Int.emod_eq_of_lt hlo (by exact_mod_cast hhi)

/-- Settles O17: the encoded fields stand in order, so each is read as what its bytes carry, which is its value. -/
theorem fieldAreaReadsBackWhatItEncodes : Obligations.FieldAreaReadsBackWhatItEncodes := by
  intro c fs hfield hsigned hunsigned honce
  have horder : c.InOrder [] (fs.map Field.asBytes) := by
    refine ReqCode.inOrder_iff.2 ⟨?_, ?_, fun _ _ _ => List.not_mem_nil⟩
    · exact List.forall_mem_map.2 fun e he => ⟨hfield e he, e.length_valueBytes⟩
    · rw [List.map_map, List.filter_map]
      exact honce
  have hvalue : ∀ e ∈ fs, (e.1, e.1.decode e.valueBytes) = e := by
    intro e he
    refine Prod.ext rfl ?_
    cases hs : e.1.signed with
    | true => exact Field.decode_valueBytes_signed hs (hsigned e he hs).1 (hsigned e he hs).2
    | false => exact Field.decode_valueBytes_unsigned hs (hunsigned e he hs).1 (hunsigned e he hs).2
  calc c.read (fs.flatMap encodeField)
    _ = c.read ((fs.map Field.asBytes).flatMap fieldBytes) := by
      rw [List.flatMap_map, funext encodeField_eq_fieldBytes]
    _ = .good ((fs.map Field.asBytes).map fun e => (e.1, e.1.decode e.2)) := ReqCode.read_inOrder horder
    _ = .good fs := by
      rw [List.map_map]
      exact congrArg Parsed.good ((List.map_congr_left hvalue).trans (List.map_id' fs))

end Sys2Proof.Machine
end

section
namespace Sys2Proof.Machine

/-! ### The running timers -/

theorem Substate.mem_timers {sub : Substate} {t : Timer} : t ∈ sub.timers ↔ sub = .coast t ∨ sub = .settle t := by
  cases sub <;> simp [Substate.timers, eq_comm]

theorem Framer.gap_eq_some {f : Framer} {t : Timer} :
    f.gap = some t ↔ f = .length t ∨ ∃ len taken, f = .body len taken t := by
  cases f <;> simp [Framer.gap]

/-- The timers of a motion state by the record that holds them. -/
theorem Motion.mem_timers_iff {m : Motion} {t : Timer} :
    t ∈ m.timers ↔
      (∃ o, m = .moving o ∧ (o.moveLimit = some t ∨ o.substate = .coast t ∨ o.substate = .settle t)) ∨
        (∃ h, m = .homing h ∧ h.limit = t) ∨ ∃ j, m = .jogging j ∧ j.deadman = t := by
  cases m <;> simp [Motion.timers, Substate.mem_timers, eq_comm]

theorem Axis.mem_timers_iff {x : Axis} {t : Timer} :
    t ∈ x.timers ↔
      x.counting.lineTimer = some t ∨ x.stall = some t ∨ (∃ r, x.lockout = some r ∧ r.timer = some t) ∨
        (∃ o, x.motion = .moving o ∧ (o.moveLimit = some t ∨ o.substate = .coast t ∨ o.substate = .settle t)) ∨
        (∃ h, x.motion = .homing h ∧ h.limit = t) ∨ ∃ j, x.motion = .jogging j ∧ j.deadman = t := by
  simp only [Axis.timers, List.mem_append, Option.mem_toList, Motion.mem_timers_iff, Option.bind_eq_some_iff,
    or_assoc, or_comm, or_left_comm]

theorem LinkPort.mem_timers_iff {l : LinkPort} {t : Timer} :
    t ∈ l.timers ↔
      l.framer = .length t ∨ (∃ len taken, l.framer = .body len taken t) ∨ l.keepalive = some t ∨
        ∃ f, l.transmitter = some f ∧ f.timer = t := by
  simp only [LinkPort.timers, List.mem_append, Option.mem_toList, Framer.gap_eq_some,
    Option.map_eq_some_iff, or_assoc]

theorem State.mem_timers_iff {s : State} {t : Timer} :
    t ∈ s.timers ↔ t ∈ s.link.timers ∨ ∃ a, t ∈ (s.axis a).timers := by
  simp [State.timers, AxisId.mem_all, or_comm]

theorem State.mayRun_iff {s : State} {n : Nat} :
    s.mayRun n = true ↔ n = 0 ∨ ∀ t ∈ s.timers, t.elapsed + n < 1000 * (t.duration + 1) := by
  simp [State.mayRun, Timer.mayRun]

/-! ### Timers before their last moment -/

/-- A timer of t ms before its last moment, t + 1 ms after its start (R199). -/
def Timer.InTime (t : Timer) : Prop := t.elapsed < 1000 * (t.duration + 1)

/-- The timers of a motion state are before their last moment. -/
def Motion.InTime (m : Motion) : Prop := ∀ t ∈ m.timers, t.InTime

/-- The timers of an axis are before their last moment. -/
structure Axis.InTime (x : Axis) : Prop where
  line : ∀ t ∈ x.counting.lineTimer, t.InTime
  motion : x.motion.InTime
  lockout : ∀ t ∈ x.lockout.bind RunOff.timer, t.InTime
  stall : ∀ t ∈ x.stall, t.InTime

/-- The timers of the Link Port are before their last moment. -/
structure LinkPort.InTime (l : LinkPort) : Prop where
  gap : ∀ t ∈ l.framer.gap, t.InTime
  keepalive : ∀ t ∈ l.keepalive, t.InTime
  transmitter : ∀ t ∈ l.transmitter.map TxFrame.timer, t.InTime

theorem Axis.inTime_iff {x : Axis} : x.InTime ↔ ∀ t ∈ x.timers, t.InTime := by
  simp only [Axis.timers, List.forall_mem_append, Option.mem_toList]
  exact ⟨fun h => ⟨⟨⟨h.line, h.motion⟩, h.lockout⟩, h.stall⟩, fun ⟨⟨⟨hc, hm⟩, hl⟩, hs⟩ => ⟨hc, hm, hl, hs⟩⟩

theorem LinkPort.inTime_iff {l : LinkPort} : l.InTime ↔ ∀ t ∈ l.timers, t.InTime := by
  simp only [LinkPort.timers, List.forall_mem_append, Option.mem_toList]
  exact ⟨fun h => ⟨⟨h.gap, h.keepalive⟩, h.transmitter⟩, fun ⟨⟨hg, hk⟩, ht⟩ => ⟨hg, hk, ht⟩⟩

/-- The timers of the part are those of its axes and of its Link Port. -/
theorem State.timersOk_iff {s : State} : s.TimersOk ↔ s.micros < 1000 ∧ s.All Axis.InTime ∧ s.link.InTime := by
  simp only [State.TimersOk, State.timers, State.All, List.forall_mem_append, List.forall_mem_flatMap,
    Axis.inTime_iff, LinkPort.inTime_iff]
  exact and_congr_right' (and_congr_left' ⟨fun h a => h a a.mem_all, fun h a _ => h a⟩)

theorem Timer.inTime_of_le {t : Timer} (h : t.elapsed ≤ 1000 * t.duration) : t.InTime := by
  unfold Timer.InTime
  omega

theorem Timer.inTime_start (n : Nat) : (Timer.start n).InTime := Timer.inTime_of_le (Nat.zero_le _)

/-- A timer just started is before its last moment. -/
theorem Timer.inTime_started (n : Nat) : ∀ t ∈ some (Timer.start n), t.InTime := by
  rintro _ ⟨⟩
  exact Timer.inTime_start n

/-- A timer started again for its full time is before its last moment. -/
theorem Timer.inTime_again (k : Option Timer) : ∀ t ∈ k.map Timer.again, t.InTime := by
  intro t ht
  obtain ⟨u, -, rfl⟩ := Option.mem_map.1 ht
  exact Timer.inTime_of_le (Nat.zero_le _)

/-! ### Motion states -/

theorem Motion.inTime_still {m : Motion} (h : m.inMotion = false) : m.InTime := by
  cases m with
  | moving | homing | jogging => cases h
  | idle | held | waiting | faulted => exact List.forall_mem_nil _

theorem Motion.inTime_ended {m : Motion} (h : m = .idle ∨ m = .held ∨ m = .faulted) : m.InTime :=
  Motion.inTime_still (by rcases h with rfl | rfl | rfl <;> rfl)

theorem Motion.inTime_moving {o : ActiveOrder} :
    (Motion.moving o).InTime ↔ (∀ t ∈ o.moveLimit, t.InTime) ∧ ∀ t ∈ o.substate.timers, t.InTime := by
  simp only [Motion.InTime, Motion.timers, List.forall_mem_append, Option.mem_toList, Option.mem_def]

theorem Motion.inTime_homing {h : Homing} : (Motion.homing h).InTime ↔ h.limit.InTime := List.forall_mem_singleton

theorem Motion.inTime_jogging {j : Jog} : (Motion.jogging j).InTime ↔ j.deadman.InTime := List.forall_mem_singleton

/-- An order that enters a substate: its move limit runs on. -/
theorem Motion.InTime.enters {o p : ActiveOrder} (h : (Motion.moving o).InTime) (hl : p.moveLimit = o.moveLimit)
    (hs : ∀ t ∈ p.substate.timers, t.InTime) : (Motion.moving p).InTime :=
  Motion.inTime_moving.2 ⟨hl ▸ (Motion.inTime_moving.1 h).1, hs⟩

theorem Motion.InTime.report {o : ActiveOrder} (h : (Motion.moving o).InTime) (a : AxisId) (z : Zone) :
    (Motion.moving (o.report a z).1).InTime := by
  unfold ActiveOrder.report
  split <;> exact h

/-! ### Lines and lockout -/

section
variable {x : Axis}

theorem Axis.inTime_newStall (x : Axis) : ∀ t ∈ x.newStall, t.InTime := by
  unfold Axis.newStall
  split
  · exact Timer.inTime_started _
  · nofun

theorem Axis.InTime.turnOn (h : x.InTime) (d : Dir) (high : Bool) : (x.turnOn d high).InTime :=
  ⟨h.line, h.motion, h.lockout, x.inTime_newStall⟩

theorem Axis.InTime.setHigh (h : x.InTime) (high : Bool) : (x.setHigh high).InTime := by
  unfold Axis.setHigh
  split
  · exact h
  · exact ⟨h.line, h.motion, h.lockout, h.stall⟩

theorem Axis.InTime.turnOff (h : x.InTime) (now : Time) : (x.turnOff now).InTime := by
  unfold Axis.turnOff
  split
  · exact h
  · exact ⟨h.line, h.motion, Timer.inTime_started _, nofun⟩

theorem Axis.InTime.endLockout (h : x.InTime) : x.endLockout.InTime := by
  refine ⟨h.line, h.motion, fun t ht => ?_, h.stall⟩
  cases hr : x.lockout <;> rw [Axis.endLockout_lockout, hr] at ht <;> cases ht

/-- A lockout in force under a new REVERSAL-GAP: at most the whole gap has run (R112). -/
theorem Axis.InTime.changeGap (h : x.InTime) (gap : Nat) : (x.changeGap gap).InTime := by
  refine ⟨h.line, h.motion, fun t ht => ?_, h.stall⟩
  rw [Axis.changeGap_lockout] at ht
  obtain ⟨r', hr', ht⟩ := Option.bind_eq_some_iff.1 ht
  obtain ⟨r, -, rfl⟩ := Option.map_eq_some_iff.1 hr'
  cases hk : r.timer with
  | none =>
    rw [RunOff.withGap, hk] at ht
    rw [hk] at ht
    cases ht
  | some k =>
    obtain ⟨u, hu, hd, he, -⟩ := r.withGap_since gap hk
    rw [hu] at ht
    cases ht
    exact Timer.inTime_of_le (hd ▸ he)

/-! ### Operations that end -/

/-- Lines off, and a motion state that an operation leaves when it ends. -/
theorem Axis.InTime.ended (h : x.InTime) (now : Time) {m : Motion} (hm : m = .idle ∨ m = .held ∨ m = .faulted)
    (b : Bool) : ({ x.turnOff now with stall := none, motion := m, holdPending := b } : Axis).InTime :=
  ⟨(h.turnOff now).line, Motion.inTime_ended hm, (h.turnOff now).lockout, nofun⟩

theorem Axis.InTime.endOrder (h : x.InTime) (a : AxisId) (now : Time) (o : ActiveOrder) (why : Reason) :
    (x.endOrder a now o why).1.InTime := h.ended now (o.motionAfter_still why _) false

theorem Axis.InTime.failHoming (h : x.InTime) (a : AxisId) (now : Time) (why : Reason) :
    (x.failHoming a now why).1.InTime := h.ended now why.motionAfter_still false

theorem Axis.InTime.endJog (h : x.InTime) (a : AxisId) (now : Time) (why : Reason) :
    (x.endJog a now why).1.InTime := h.ended now why.motionAfter_still false

theorem Axis.InTime.endHoming (h : x.InTime) (a : AxisId) (now : Time) (datum : Int) :
    (x.endHoming a now datum).1.InTime := h.ended now (by cases x.holdPending <;> simp) false

theorem Axis.InTime.endOperation (h : x.InTime) (a : AxisId) (now : Time) (why : Reason) :
    (x.endOperation a now why).1.InTime := by
  unfold Axis.endOperation
  split
  · exact h.endOrder ..
  · exact h.failHoming ..
  · exact h.endJog ..
  all_goals exact h

/-- A motion state without timers. -/
theorem Axis.InTime.stands (h : x.InTime) {m : Motion} (hm : m.inMotion = false) (b : Bool) :
    ({ x with motion := m, holdPending := b } : Axis).InTime :=
  ⟨h.line, Motion.inTime_still hm, h.lockout, h.stall⟩

theorem Axis.InTime.takeFault (h : x.InTime) (a : AxisId) (now : Time) (k : FaultKind) :
    (x.takeFault a now k).1.InTime := (h.endOperation a now k.reason).stands rfl false

/-- A Counting Unit with the same line timer. -/
theorem Axis.InTime.withCounting (h : x.InTime) {c : CountingUnit} (hc : c.lineTimer = x.counting.lineTimer) :
    ({ x with counting := c } : Axis).InTime := ⟨hc ▸ h.line, h.motion, h.lockout, h.stall⟩

theorem Axis.InTime.recordFault (h : x.InTime) (a : AxisId) (now : Time) (k : FaultKind) :
    (x.recordFault a now k).1.InTime := by
  rw [Axis.recordFault_congr (y := x) a now k rfl rfl]
  exact h.withCounting rfl

theorem Axis.InTime.stalls (h : x.InTime) (a : AxisId) (now : Time) : (x.stalls a now).1.InTime :=
  have hoff : ({ x.turnOff now with stall := none } : Axis).InTime :=
    ⟨(h.turnOff now).line, (h.turnOff now).motion, (h.turnOff now).lockout, nofun⟩
  (hoff.recordFault a now .stall).takeFault a now .stall

/-! ### The approach engine -/

variable {o : ActiveOrder}

theorem Axis.InTime.moves (h : x.InTime) (ho : (Motion.moving o).InTime) :
    ({ x with motion := .moving o } : Axis).InTime := ⟨h.line, ho, h.lockout, h.stall⟩

theorem Axis.InTime.enterSettle (h : x.InTime) (ho : (Motion.moving o).InTime) (a : AxisId) :
    (x.enterSettle a o).1.InTime :=
  h.moves ((ho.report a .windowEntered).enters rfl (List.forall_mem_singleton.2 (Timer.inTime_start _)))

theorem Axis.InTime.enterCoast (h : x.InTime) (ho : (Motion.moving o).InTime) (a : AxisId) :
    (x.enterCoast a o).1.InTime := by
  have hrest {p : ActiveOrder} (hp : (Motion.moving p).InTime) (n : Nat) :
      (Motion.moving { p with substate := .coast (Timer.start n) }).InTime :=
    hp.enters rfl (List.forall_mem_singleton.2 (Timer.inTime_start n))
  unfold Axis.enterCoast
  split
  · exact h.moves (hrest (ho.report a .passed) _)
  · exact h.moves (hrest ho _)

/-- The substates that a leg start enters hold no timer. -/
theorem planLeg_timers {kind : AxisKind} {pr : Profile} {n : Nat} {aim : Aim} {d : Dir} {high : Bool} {sub : Substate}
    (h : planLeg kind pr n aim = .run d high sub) : sub.timers = [] := by
  unfold planLeg at h
  split at h
  · cases h
  repeat' split at h
  all_goals
    cases h
    rfl

theorem Axis.InTime.beginLeg (h : x.InTime) (ho : (Motion.moving o).InTime) {sub : Substate} (hs : sub.timers = [])
    (a : AxisId) (now : Time) (limited : Dir → Bool) (d : Dir) (high : Bool) :
    (x.beginLeg a now limited o d high sub).1.InTime := by
  have hleg {p : ActiveOrder} (hp : (Motion.moving p).InTime) (leg : Option Dir) :
      (Motion.moving { p with substate := sub, leg := leg }).InTime :=
    hp.enters rfl (hs ▸ List.forall_mem_nil _)
  unfold Axis.beginLeg
  split
  · exact h.endOrder ..
  split
  · exact h.moves (ho.enters rfl (List.forall_mem_nil _))
  · refine (h.turnOn d high).moves (hleg ?_ _)
    split
    · exact ho.report a .slowEntered
    · exact ho

theorem Axis.InTime.legStart (h : x.InTime) (ho : (Motion.moving o).InTime) (a : AxisId) (now : Time)
    (limited : Dir → Bool) (p : Int) : (x.legStart a now limited p o).1.InTime := by
  have haimed (aim : Aim) : (Motion.moving { o with dir := aim.dir, dist := aim.dist }).InTime := ho
  unfold Axis.legStart
  dsimp only
  split
  · exact h.enterSettle (haimed _) a
  · rename_i hleg
    exact h.beginLeg (haimed _) (planLeg_timers hleg) ..

theorem Axis.InTime.cut (h : x.InTime) (ho : (Motion.moving o).InTime) (a : AxisId) (now : Time) :
    (x.cut a now o).1.InTime := by
  unfold Axis.cut
  dsimp only
  split
  · exact (h.turnOff now).enterSettle (ho.report a .cutEntered) a
  · exact (h.turnOff now).enterCoast (ho.report a .cutEntered) a

theorem Axis.InTime.slowMoved (h : x.InTime) (ho : (Motion.moving o).InTime) (a : AxisId) (now : Time) (k : LegKind) :
    (x.slowMoved a now k o).1.InTime := by
  have hslow (k : LegKind) : (Motion.moving { o with substate := .slow k }).InTime :=
    ho.enters rfl (List.forall_mem_nil _)
  unfold Axis.slowMoved
  split
  · split
    · exact h.cut ho a now
    · exact h.moves (hslow .normal)
  · split
    · exact (h.turnOff now).enterSettle ho a
    · exact h.moves (hslow .short)

theorem Axis.InTime.fastMoved (h : x.InTime) (ho : (Motion.moving o).InTime) (a : AxisId) (now : Time) :
    (x.fastMoved a now o).1.InTime := by
  unfold Axis.fastMoved
  split
  · exact (h.setHigh false).slowMoved (ho.report a .slowEntered) a now .normal
  · exact h.moves ho

theorem Axis.InTime.takeupMoved (h : x.InTime) (ho : (Motion.moving o).InTime) (a : AxisId) (now : Time)
    (limited : Dir → Bool) : (x.takeupMoved a now limited o).1.InTime := by
  unfold Axis.takeupMoved
  split
  · exact (h.turnOff now).legStart ho ..
  split
  · exact (h.setHigh false).moves ho
  · exact h.moves ho

theorem Axis.InTime.coastMoved (h : x.InTime) (ho : (Motion.moving o).InTime) (a : AxisId) :
    (x.coastMoved a o).1.InTime := by
  unfold Axis.coastMoved
  split
  · exact h.enterSettle ho a
  split
  · exact h.moves (ho.report a .passed)
  · exact h.moves ho

theorem Axis.InTime.settleMoved (h : x.InTime) (ho : (Motion.moving o).InTime) (a : AxisId) :
    (x.settleMoved a o).1.InTime := by
  unfold Axis.settleMoved
  split
  · exact h.moves ho
  · exact h.enterCoast ho a

theorem Axis.InTime.positionMoved (h : x.InTime) (a : AxisId) (now : Time) (limited : Dir → Bool) (d : Dir) :
    (x.positionMoved a now limited d).1.InTime := by
  unfold Axis.positionMoved
  split
  · rename_i o hm
    have ho (n : Int) : (Motion.moving { o with dist := n }).InTime := (hm ▸ h.motion : (Motion.moving o).InTime)
    dsimp only
    split
    · exact h.takeupMoved (ho _) ..
    · exact h.fastMoved (ho _) ..
    · exact h.slowMoved (ho _) ..
    · exact h.coastMoved (ho _) a
    · exact h.settleMoved (ho _) a
    · exact h.moves (ho _)
  all_goals exact h

theorem Axis.InTime.countEvent (h : x.InTime) : x.countEvent.InTime := by
  have hstall : x.restartStall.InTime := ⟨h.line, h.motion, h.lockout, Timer.inTime_again x.stall⟩
  unfold Axis.countEvent
  dsimp only
  split
  · rename_i o hm
    have ho : (Motion.moving o).InTime := hm ▸ hstall.motion
    split
    · exact hstall.moves (ho.enters rfl (List.forall_mem_singleton.2 (Timer.inTime_start _)))
    all_goals exact hstall
  all_goals exact hstall

theorem Axis.InTime.judgeRest (h : x.InTime) (ho : (Motion.moving o).InTime) (a : AxisId) (now : Time)
    (limited : Dir → Bool) : (x.judgeRest a now limited o).1.InTime := by
  unfold Axis.judgeRest
  split
  · exact h
  split
  · exact h.legStart (o := { o with corrections := o.corrections + 1 }) ho ..
  · exact h.endOrder ..

/-- An act on the active order, which is before the last moment of its timers. -/
theorem Axis.InTime.onOrder (h : x.InTime) {f : ActiveOrder → Axis → Taken}
    (hf : ∀ o, (Motion.moving o).InTime → (f o x).1.InTime) : (x.onOrder f).1.InTime := by
  unfold Axis.onOrder
  split
  · rename_i o hm
    exact hf o (hm ▸ h.motion)
  all_goals exact h

/-- A start that runs starts the move limit (R67, R98). -/
theorem Resolved.inTime_activate (r : Resolved) (o : Order) (aim : Aim) (leg : Leg) :
    (Motion.moving (r.activate o aim leg)).InTime := by
  refine Motion.inTime_moving.2 ⟨?_, List.forall_mem_singleton.2 (Timer.inTime_start _)⟩
  unfold Resolved.activate
  dsimp only
  split
  · nofun
  · exact Timer.inTime_started _

theorem Axis.InTime.takeStart (h : x.InTime) (a : AxisId) (now : Time) (t : TableStore) (guarded : Bool)
    (limited : Dir → Bool) : (x.takeStart a now t guarded limited).1.InTime := by
  unfold Axis.takeStart
  split
  · split
    · exact h.stands rfl x.holdPending
    · exact ⟨h.line, Motion.inTime_still rfl, h.lockout, h.stall⟩
    · exact h
    · rename_i o rest _ _ _ r _
      have ho := r.inTime_activate o (x.config.aim r.snapshot x.formed r.target) (x.config.firstLeg r x.formed)
      have hrest : ({ x with queue := rest } : Axis).InTime := ⟨h.line, h.motion, h.lockout, h.stall⟩
      exact (hrest.moves ho).legStart ho ..
  · exact h

/-! ### Homing, jog -/

theorem Axis.InTime.askFor (h : x.InTime) (d : Dir) (high : Bool) : (x.askFor d high).InTime := by
  unfold Axis.askFor
  split
  · split
    · exact h.turnOn d high
    · exact h
  · exact h

theorem Axis.InTime.bringLines (h : x.InTime) (now : Time) (r : Homing) : (x.bringLines now r).InTime := by
  unfold Axis.bringLines
  split
  · split
    · exact h.setHigh _
    · exact (h.turnOff now).askFor ..
  · exact h

theorem Axis.InTime.homingGoes (h : x.InTime) (now : Time) {r : Homing} (hr : r.limit.InTime) :
    (x.homingGoes now r).1.InTime :=
  Axis.InTime.bringLines (x := { x with motion := .homing r })
    ⟨h.line, Motion.inTime_homing.2 hr, h.lockout, h.stall⟩ now r

theorem Homing.sensed_limit (r : Homing) (active : Bool) (dir : Option Dir) : (r.sensed active dir).limit = r.limit := by
  unfold Homing.sensed
  split
  · rfl
  · split <;> rfl
  · split <;> rfl
  · rfl

theorem Axis.InTime.jogs (h : x.InTime) {j : Jog} (hj : j.deadman.InTime) :
    ({ x with motion := .jogging j } : Axis).InTime := ⟨h.line, Motion.inTime_jogging.2 hj, h.lockout, h.stall⟩

theorem Axis.InTime.askJog (h : x.InTime) {j : Jog} (hj : j.deadman.InTime) : (x.askJog j).InTime := by
  unfold Axis.askJog
  split
  · exact (h.turnOn ..).jogs hj
  · exact h.jogs hj

/-- An accepted JOG starts the deadman timer anew (R115, R116). -/
theorem Axis.InTime.jog (h : x.InTime) (now : Time) (d : Dir) (sp : Speed) (n : Nat) : (x.jog now d sp n).InTime := by
  have hn := Timer.inTime_start n
  unfold Axis.jog
  split
  · unfold Axis.changeJog
    dsimp only
    split
    · split
      · exact h.jogs hn
      · exact (h.setHigh _).jogs hn
    · split
      · exact h.askJog hn
      · exact (h.turnOff now).askJog hn
  all_goals exact h.askJog hn

theorem Axis.InTime.jogNone (h : x.InTime) (a : AxisId) (now : Time) : (x.jogNone a now).1.InTime := by
  unfold Axis.jogNone
  split
  · exact h.endJog ..
  all_goals exact h

theorem Axis.InTime.lockoutExpired (h : x.InTime) (a : AxisId) (now : Time) (limited : Dir → Bool) :
    (x.lockoutExpired a now limited).1.InTime := by
  have hend := h.endLockout
  unfold Axis.lockoutExpired
  dsimp only
  split
  · rename_i o hm
    split
    · exact hend.legStart (hm ▸ hend.motion) ..
    all_goals exact hend
  · exact hend.bringLines ..
  · rename_i j hm
    split
    · exact hend.askJog (Motion.inTime_jogging.1 (hm ▸ hend.motion))
    · exact hend
  all_goals exact hend

/-! ### Claims and requests of one axis -/

theorem Axis.InTime.takeStop (h : x.InTime) (a : AxisId) (now : Time) : (x.takeStop a now).1.InTime := by
  unfold Axis.takeStop
  split
  · exact h.endOrder ..
  · exact h.failHoming ..
  all_goals exact h

theorem Axis.InTime.takeLimit (h : x.InTime) (a : AxisId) (now : Time) (d : Dir) :
    (x.takeLimit a now d).1.InTime := by
  unfold Axis.takeLimit
  split
  · split
    · exact h.endOrder ..
    · exact h
  · split
    · exact h.endJog ..
    · exact h
  all_goals exact h

theorem Axis.InTime.takeRelease (h : x.InTime) : x.takeRelease.1.InTime := by
  unfold Axis.takeRelease
  split
  · exact h.stands rfl x.holdPending
  · exact h

theorem Axis.InTime.popClaim (h : x.InTime) : x.popClaim.InTime := ⟨h.line, h.motion, h.lockout, h.stall⟩

theorem Axis.InTime.stopClaim (h : x.InTime) (a : AxisId) (now : Time) : (x.stopClaim a now).1.InTime := by
  unfold Axis.stopClaim
  split
  · exact h.popClaim.takeStop ..
  · exact h

theorem Axis.InTime.limitClaim (h : x.InTime) (a : AxisId) (now : Time) : (x.limitClaim a now).1.InTime := by
  unfold Axis.limitClaim
  split
  · exact h.popClaim.takeLimit ..
  · exact h

theorem Axis.InTime.guardRelease (h : x.InTime) : x.guardRelease.1.InTime := by
  unfold Axis.guardRelease
  split
  · exact h.popClaim.takeRelease
  · exact h

theorem Axis.InTime.faultClaim (h : x.InTime) (a : AxisId) (now : Time) : (x.faultClaim a now).1.InTime := by
  unfold Axis.faultClaim
  split
  · exact h
  · rename_i k rest _
    exact Axis.InTime.takeFault (x := { x with faultClaims := rest }) ⟨h.line, h.motion, h.lockout, h.stall⟩ a now k

theorem Axis.InTime.holdQueue (h : x.InTime) : x.holdQueue.InTime := by
  unfold Axis.holdQueue
  split
  · exact h.stands rfl false
  · exact h

theorem Axis.InTime.linkLost (h : x.InTime) (a : AxisId) (now : Time) : (x.linkLost a now).1.InTime :=
  (h.endOperation a now .linkLost).holdQueue

theorem Axis.InTime.hold (h : x.InTime) : x.hold.InTime := by
  unfold Axis.hold
  split
  · exact h.stands rfl false
  · exact h.stands rfl false
  all_goals exact ⟨h.line, h.motion, h.lockout, h.stall⟩

theorem Axis.InTime.release (h : x.InTime) : x.release.InTime := by
  refine ⟨h.line, ?_, h.lockout, h.stall⟩
  unfold Axis.release
  dsimp only
  split
  · exact Motion.inTime_still rfl
  · exact h.motion

theorem Axis.InTime.halt (h : x.InTime) (a : AxisId) (now : Time) : (x.halt a now).1.InTime := by
  unfold Axis.halt
  split
  · exact h.endOperation ..
  · exact h.endOperation ..
  · exact h.endOperation ..
  · exact h.stands rfl false
  · exact h.stands rfl false
  · exact h.stands rfl false
  · exact ⟨h.line, h.motion, h.lockout, h.stall⟩

theorem Axis.InTime.stop (h : x.InTime) (a : AxisId) (now : Time) (flush : Bool) :
    (x.stop a now flush).1.InTime := by
  have hhalt := h.halt a now
  unfold Axis.stop
  dsimp only
  split
  · exact ⟨hhalt.line, hhalt.motion, hhalt.lockout, hhalt.stall⟩
  · exact hhalt

theorem Motion.InTime.afterRemoval {m : Motion} (h : m.InTime) (left : List Order) : (m.afterRemoval left).InTime := by
  unfold Motion.afterRemoval
  split
  · exact Motion.inTime_still rfl
  · exact h

theorem Axis.InTime.cancelTag (h : x.InTime) (a : AxisId) (now : Time) (tag : Nat) :
    (x.cancelTag a now tag).1.InTime := by
  unfold Axis.cancelTag
  split
  · split
    · exact h.endOrder ..
    · exact ⟨h.line, h.motion, h.lockout, h.stall⟩
  · exact ⟨h.line, h.motion.afterRemoval _, h.lockout, h.stall⟩

theorem Axis.InTime.cancelAll (h : x.InTime) (a : AxisId) (now : Time) : (x.cancelAll a now).1.InTime := by
  have hrest {y : Axis} (hy : y.InTime) :
      ({ y with queue := [], motion := y.motion.afterRemoval [] } : Axis).InTime :=
    ⟨hy.line, hy.motion.afterRemoval [], hy.lockout, hy.stall⟩
  unfold Axis.cancelAll
  dsimp only
  split
  · exact hrest (h.endOrder ..)
  all_goals exact hrest h

theorem Axis.InTime.configure (h : x.InTime) (c : AxisConfig) : (x.configure c).InTime := by
  have hgap : (if c.reversalGap = x.config.reversalGap then x else x.changeGap c.reversalGap).InTime := by
    split
    · exact h
    · exact h.changeGap _
  exact ⟨hgap.line, hgap.motion, hgap.lockout, hgap.stall⟩

theorem Axis.InTime.capture (h : x.InTime) (a : AxisId) (now : Time) (active : Bool) :
    (x.capture a now active).1.InTime := by
  unfold Axis.capture
  generalize (if active = true then Edge.rise else Edge.fall) = e
  dsimp only
  split
  · exact ⟨h.line, h.motion, h.lockout, h.stall⟩
  · exact h

theorem Axis.InTime.pairsChange (h : x.InTime) (m : PairMismatch) : (x.pairsChange m).InTime := by
  refine ⟨?_, h.motion, h.lockout, h.stall⟩
  unfold Axis.pairsChange
  dsimp only
  split
  · nofun
  split
  · exact Timer.inTime_started _
  · exact h.line

end

/-- A reset starts the line timer of a mismatched pair and the timer of a lockout, and no other (R20, R111). -/
theorem Axis.inTime_resetTo (low : Bool) (x : Axis) : (x.resetTo low).InTime := by
  refine ⟨?_, Motion.inTime_still rfl, ?_, nofun⟩
  · unfold Axis.resetTo Axis.reset
    dsimp only
    split
    · exact Timer.inTime_started _
    · nofun
  · show ∀ t ∈ (x.resetLockout low).bind RunOff.timer, t.InTime
    unfold Axis.resetLockout
    split
    · exact Timer.inTime_started _
    split
    · cases x.lockout with
      | none => nofun
      | some r => exact Timer.inTime_started _
    · nofun

end Sys2Proof.Machine
end

section
namespace Sys2Proof.Machine

/-! ### The timers of the Link Port -/

theorem inTime_gapTimer : ∀ t ∈ some gapTimer, t.InTime := Timer.inTime_started _

theorem LinkPort.InTime.takeByte {l : LinkPort} (h : l.InTime) (b : Byte) : (l.takeByte b).InTime := by
  unfold LinkPort.takeByte
  split
  · split
    · exact ⟨inTime_gapTimer, h.keepalive, h.transmitter⟩
    · exact h
  · split
    · exact ⟨inTime_gapTimer, h.keepalive, h.transmitter⟩
    · exact ⟨nofun, h.keepalive, h.transmitter⟩
  · unfold LinkPort.bodyTaken
    split
    · exact ⟨inTime_gapTimer, h.keepalive, h.transmitter⟩
    · exact ⟨nofun, h.keepalive, h.transmitter⟩

theorem LinkPort.InTime.takeDamaged {l : LinkPort} (h : l.InTime) : l.takeDamaged.InTime := by
  unfold LinkPort.takeDamaged
  split
  · exact h
  all_goals exact ⟨nofun, h.keepalive, h.transmitter⟩

theorem LinkPort.InTime.takeEvent {l : LinkPort} (h : l.InTime) (e : LineEvent) : (l.takeEvent e).InTime := by
  unfold LinkPort.takeEvent
  split
  · exact h
  · cases e
    · exact h.takeByte _
    · exact h.takeDamaged
    · exact h.takeDamaged

/-- The expiry of the gap timer abandons the frame (R172). -/
theorem LinkPort.InTime.abandons {l : LinkPort} (h : l.InTime) : { l with framer := .hunt }.countGap.InTime :=
  ⟨nofun, h.keepalive, h.transmitter⟩

theorem LinkPort.InTime.alive {l : LinkPort} (h : l.InTime) : l.alive.InTime := by
  unfold LinkPort.alive
  split
  · exact h
  · exact ⟨h.gap, Timer.inTime_again _, h.transmitter⟩

theorem LinkPort.InTime.checkFrame {l : LinkPort} (h : l.InTime) (f : RxFrame) : (l.checkFrame f).InTime := by
  have hsame {k m : LinkPort} (hk : k.InTime) (hm : m.timers = k.timers) : m.InTime :=
    LinkPort.inTime_iff.2 (hm ▸ LinkPort.inTime_iff.1 hk)
  unfold LinkPort.checkFrame
  split
  · split
    · unfold LinkPort.joinIntake
      split <;> exact hsame h.alive rfl
    · exact hsame h.alive rfl
  · exact hsame h rfl

theorem LinkPort.InTime.frameReceived {l : LinkPort} (h : l.InTime) : l.frameReceived.InTime := by
  unfold LinkPort.frameReceived
  split
  · exact h
  · rename_i f rest _
    exact LinkPort.InTime.checkFrame (l := { l with completed := rest }) ⟨h.gap, h.keepalive, h.transmitter⟩ f

theorem LinkPort.InTime.transmits {l : LinkPort} (h : l.InTime) (rate : Nat) (body : List Byte) :
    ({ l with transmitter := some (TxFrame.of rate body) } : LinkPort).InTime :=
  ⟨h.gap, h.keepalive, Timer.inTime_started _⟩

theorem LinkPort.InTime.beginReply {l : LinkPort} (h : l.InTime) : l.beginReply.InTime := by
  unfold LinkPort.beginReply
  split
  · exact ⟨h.gap, h.keepalive, Timer.inTime_started _⟩
  · exact h

theorem LinkPort.InTime.answerRetry {l : LinkPort} (h : l.InTime) : l.answerRetry.InTime := by
  unfold LinkPort.answerRetry
  repeat' split
  all_goals exact ⟨h.gap, h.keepalive, h.transmitter⟩

theorem LinkPort.InTime.opens {l : LinkPort} (h : l.InTime) (n : Nat) : (l.opens n).InTime := by
  refine ⟨h.gap, ?_, h.transmitter⟩
  unfold LinkPort.opens
  dsimp only
  split
  · nofun
  · exact Timer.inTime_started n

theorem LinkPort.inTime_reset (st : Straps) (held : Bool) : (LinkPort.reset st held).InTime := ⟨nofun, nofun, nofun⟩

/-! ### The timers of the part through the shared operations -/

section
variable {s : State}

theorem State.TimersOk.axes (h : s.TimersOk) : s.All Axis.InTime := (State.timersOk_iff.1 h).2.1

theorem State.TimersOk.link (h : s.TimersOk) : s.link.InTime := (State.timersOk_iff.1 h).2.2

/-- What leaves the microseconds and the Link Port alone keeps the timers where it keeps those of the axes. -/
theorem State.TimersOk.of_axes (h : s.TimersOk) {t : State} (hm : t.micros = s.micros) (hl : t.link = s.link)
    (ha : t.All Axis.InTime) : t.TimersOk :=
  State.timersOk_iff.2 ⟨hm ▸ h.1, ha, hl ▸ h.link⟩

theorem State.TimersOk.setLink (h : s.TimersOk) {l : LinkPort} (hl : l.InTime) : (s.setLink l).TimersOk :=
  State.timersOk_iff.2 ⟨h.1, h.axes, hl⟩

theorem State.TimersOk.setAxis (h : s.TimersOk) (a : AxisId) {x : Axis} (hx : x.InTime) : (s.setAxis a x).TimersOk :=
  h.of_axes rfl rfl (h.axes.setAxis a hx)

theorem State.TimersOk.modifyAxis (h : s.TimersOk) (a : AxisId) {f : Axis → Axis} (hf : ∀ x, x.InTime → (f x).InTime) :
    (s.modifyAxis a f).TimersOk := h.setAxis a (hf _ (h.axes a))

theorem State.TimersOk.take (h : s.TimersOk) (a : AxisId) {f : Axis → Taken} (hf : ∀ x, x.InTime → (f x).1.InTime) :
    (s.take a f).TimersOk :=
  h.of_axes (State.take_micros ..) (State.take_link ..) (h.axes.take a (hf _))

/-- Claims sent are no timers. -/
theorem State.TimersOk.same (h : s.TimersOk) {t : State} (hm : t.micros = s.micros) (hl : t.link = s.link)
    (ha : ∀ a, (s.axis a).SameButClaims (t.axis a)) : t.TimersOk :=
  h.of_axes hm hl fun a => by
    have hx := h.axes a
    rw [show t.axis a = { s.axis a with claims := (t.axis a).claims } from ha a]
    exact ⟨hx.line, hx.motion, hx.lockout, hx.stall⟩

theorem State.TimersOk.setMonitor (h : s.TimersOk) (w : WindowMonitor) : (s.setMonitor w).TimersOk := h

theorem State.TimersOk.offers (h : s.TimersOk) (bs : List NoticeBody) : (s.offers bs).TimersOk :=
  h.of_axes (State.offers_micros ..) (State.offers_link ..) (h.axes.offers bs)

theorem State.TimersOk.sends (h : s.TimersOk) (cs : List (AxisId × Claim)) : (s.sends cs).TimersOk :=
  h.same (State.sends_micros ..) (State.sends_link ..) (s.sends_same cs)

theorem State.TimersOk.monitorTakes (h : s.TimersOk) (p : Option Int) (ws : Table Window) (pick : Guard → Bool)
    (limits : Nat → Window → Bool) : (s.monitorTakes p ws pick limits).TimersOk :=
  h.same (State.monitorTakes_micros ..) (State.monitorTakes_link ..) (s.monitorTakes_same p ws pick limits)

theorem State.TimersOk.windowsOf (h : s.TimersOk) (a : AxisId) : (s.windowsOf a).TimersOk :=
  h.same (State.windowsOf_micros ..) (State.windowsOf_link ..) (s.windowsOf_same a)

/-! ### The Counting Unit -/

theorem State.TimersOk.loseReference (h : s.TimersOk) (a : AxisId) : (s.loseReference a).TimersOk := by
  unfold State.loseReference
  split
  · exact h
  · refine State.TimersOk.windowsOf (s := s.modifyAxis a _) ?_ a
    exact h.modifyAxis a fun _ hx => hx.withCounting rfl

theorem State.TimersOk.raise (h : s.TimersOk) (a : AxisId) (k : FaultKind) : (s.raise a k).TimersOk :=
  ((h.take a fun _ hx => hx.recordFault ..).loseReference a).modifyAxis a
    fun _ hx => ⟨hx.line, hx.motion, hx.lockout, hx.stall⟩

theorem State.TimersOk.raiseLine (h : s.TimersOk) (a : AxisId) : (s.raiseLine a).TimersOk := by
  refine State.TimersOk.raise (s := s.modifyAxis a _) ?_ a .line
  exact h.modifyAxis a fun _ hx => hx.withCounting rfl

theorem State.TimersOk.dropGained (h : s.TimersOk) (a : AxisId) : (s.dropGained a).TimersOk := by
  unfold State.dropGained
  split
  · exact h.loseReference a
  · exact h.loseReference a
  · exact h.loseReference a
  · exact h
  · exact h

theorem State.TimersOk.indexCheck (h : s.TimersOk) (a : AxisId) : (s.indexCheck a).TimersOk := by
  have hx := h.axes a
  unfold State.indexCheck
  dsimp only
  split
  · exact h
  split
  · exact h.setAxis a (hx.withCounting rfl)
  split
  · exact h.setAxis a (hx.withCounting rfl)
  · exact h.raise a .slip

theorem State.TimersOk.controllerMoves (h : s.TimersOk) (a : AxisId) (d : Dir) : (s.controllerMoves a d).TimersOk :=
  h.take a fun _ hx => hx.positionMoved ..

theorem State.TimersOk.countEdge (h : s.TimersOk) (a : AxisId) (levels : EncoderLevels) (order : List Block) :
    (s.countEdge a levels order).TimersOk := by
  have hx := h.axes a
  unfold State.countEdge
  dsimp only
  split
  · exact h.setAxis a ⟨hx.line, hx.motion, hx.lockout, hx.stall⟩
  · have hcounted (d : Dir) : (s.setAxis a ((s.axis a).count levels d).countEvent).TimersOk :=
      h.setAxis a (Axis.InTime.countEvent ⟨hx.line, hx.motion, hx.lockout, hx.stall⟩)
    split
    · exact hcounted _
    split
    · exact (hcounted _).raise a .overrange
    split
    · exact ((hcounted _).controllerMoves a _).windowsOf a
    · exact ((hcounted _).windowsOf a).controllerMoves a _

theorem State.TimersOk.lineConditionArises (h : s.TimersOk) (a : AxisId) : (s.lineConditionArises a).TimersOk := by
  have harises := h.modifyAxis a (f := fun x =>
    { x with counting := { x.counting with lineFault := true, lineTimer := none } })
    fun x hx => ⟨nofun, hx.motion, hx.lockout, hx.stall⟩
  unfold State.lineConditionArises
  dsimp only
  split
  · exact harises.raiseLine a
  · exact harises

/-! ### Starts, homing, captures -/

theorem State.TimersOk.startHead (h : s.TimersOk) (a : AxisId) : (s.startHead a).TimersOk :=
  h.take a fun _ hx => hx.takeStart ..

theorem State.TimersOk.logSense (h : s.TimersOk) (a : AxisId) (active : Bool) : (s.logSense a active).TimersOk :=
  h.take a fun _ hx => hx.capture ..

theorem State.TimersOk.referenceAct (h : s.TimersOk) (a : AxisId) (datum : Int) (b : Block) :
    (s.referenceAct a datum b).TimersOk := by
  cases b
  · exact h.take a fun _ hx => hx.endHoming ..
  · exact h.windowsOf a
  · exact h.logSense a false
  · exact h
  · exact h.startHead a

/-- Blocks that take an event one after another keep the timers where each of them does. -/
theorem State.TimersOk.foldl {f : State → Block → State} (hf : ∀ u b, State.TimersOk u → (f u b).TimersOk)
    (h : s.TimersOk) (bs : List Block) : (bs.foldl f s).TimersOk := by
  induction bs generalizing s with
  | nil => exact h
  | cons b bs ih => exact ih (hf s b h)

theorem State.TimersOk.referenceEvent (h : s.TimersOk) (a : AxisId) (datum : Int) (sense : Bool) (order : List Block) :
    (s.referenceEvent a datum sense order).TimersOk := by
  refine State.TimersOk.foldl (s := s.modifyAxis a _) (fun _ b hu => hu.referenceAct a datum b) ?_ _
  exact h.modifyAxis a fun _ hx => hx.withCounting rfl

theorem State.TimersOk.homingMark (h : s.TimersOk) (a : AxisId) (dir : Option Dir) (order : List Block) :
    (s.homingMark a dir order).TimersOk := by
  unfold State.homingMark
  split
  · split
    · split
      · exact h.referenceEvent ..
      · exact h
    all_goals exact h
  all_goals exact h

theorem State.TimersOk.homingSense (h : s.TimersOk) {a : AxisId} {r : Homing} (hr : r.limit.InTime) (active : Bool)
    (order : List Block) : (s.homingSense a r active order).TimersOk := by
  unfold State.homingSense
  dsimp only
  split
  · exact h.referenceEvent ..
  · exact (h.take a fun _ hx => hx.homingGoes _ ((r.sensed_limit ..).symm ▸ hr)).logSense a active

/-! ### Requests -/

/-- The execution of a request keeps the timers where its rule does. -/
theorem State.TimersOk.execute (h : s.TimersOk) {c : ReqCode} {own : List Field → State → Answer × State}
    (ho : ∀ fs u, State.TimersOk u → (own fs u).2.TimersOk) : (s.execute c own).TimersOk := by
  rcases s.execute_cases c own with e | ⟨r, -, ⟨ans, e⟩ | ⟨fs, -, e⟩⟩ <;> rw [e]
  · exact h
  · exact h
  · exact ho fs (s.setLink s.link.popIntake) h

theorem openRule_timersOk (fs : List Field) (h : s.TimersOk) : (openRule fs s).2.TimersOk := by
  unfold openRule
  split
  · exact h
  · exact h.setLink (h.link.opens _)

theorem closeRule_timersOk (fs : List Field) (h : s.TimersOk) : (closeRule fs s).2.TimersOk := by
  unfold closeRule
  split
  · exact h
  · refine State.timersOk_iff.2 ⟨h.1, fun a => ?_, ⟨h.link.gap, nofun, h.link.transmitter⟩⟩
    rw [State.close_axis]
    exact (h.axes a).holdQueue

theorem setAxisRule_timersOk (fs : List Field) (h : s.TimersOk) : (setAxisRule fs s).2.TimersOk := by
  have hstored (c : AxisConfig) (a : AxisId) : (s.modifyAxis a (Axis.configure c)).TimersOk :=
    h.modifyAxis a fun _ hx => hx.configure c
  unfold setAxisRule
  dsimp only
  split
  · unfold State.configure
    dsimp only
    split
    · split
      · exact ((hstored ..).loseReference _).raiseLine _
      · exact (hstored ..).raiseLine _
    · split
      · exact (hstored ..).loseReference _
      · exact hstored ..
  · exact h

theorem clearFaultRule_timersOk (fs : List Field) (h : s.TimersOk) : (clearFaultRule fs s).2.TimersOk := by
  unfold clearFaultRule
  dsimp only
  split
  · exact h
  split
  · exact h
  · exact h.modifyAxis _ fun _ hx => ⟨hx.line, Motion.inTime_still rfl, hx.lockout, hx.stall⟩

/-- An accepted HOME starts the limit timer of its run (table 2-2). -/
theorem homeRule_timersOk (fs : List Field) (h : s.TimersOk) : (homeRule fs s).2.TimersOk := by
  unfold homeRule
  dsimp only
  split
  · exact h
  split
  · exact h
  split
  · exact h
  split
  · exact h
  · exact (h.take _ fun _ hx => hx.homingGoes _ (Timer.inTime_start _)).loseReference _

theorem teachRule_timersOk (fs : List Field) (h : s.TimersOk) : (teachRule fs s).2.TimersOk := by
  unfold teachRule
  dsimp only
  split
  · exact h
  split
  · exact h
  split
  · exact h
  · refine State.TimersOk.windowsOf (s := s.modifyAxis _ _) ?_ _
    exact h.modifyAxis _ fun _ hx => hx.withCounting rfl

theorem shiftRule_timersOk (fs : List Field) (h : s.TimersOk) : (shiftRule fs s).2.TimersOk := by
  have hshifted (v : Int) (a : AxisId) :
      (s.setAxis a { s.axis a with counting := { (s.axis a).counting with shift := v } }).TimersOk :=
    h.setAxis a ((h.axes a).withCounting rfl)
  unfold shiftRule
  dsimp only
  split
  · exact h
  split
  · exact h
  split
  · exact h
  · unfold State.shift
    dsimp only
    split
    · exact (hshifted ..).windowsOf _
    · exact hshifted ..

theorem enqueueRule_timersOk (fs : List Field) (h : s.TimersOk) : (enqueueRule fs s).2.TimersOk := by
  have hx := h.axes (fieldAxis fs)
  unfold enqueueRule
  dsimp only
  split
  · exact h
  · exact h.setAxis _ ⟨hx.line, hx.motion, hx.lockout, hx.stall⟩

theorem cancelRule_timersOk (fs : List Field) (h : s.TimersOk) : (cancelRule fs s).2.TimersOk := by
  unfold cancelRule
  dsimp only
  split
  · exact h.take _ fun _ hx => hx.cancelAll ..
  split
  · exact h.take _ fun _ hx => hx.cancelTag ..
  · exact h

theorem holdRule_timersOk (fs : List Field) (h : s.TimersOk) : (holdRule fs s).2.TimersOk := by
  unfold holdRule
  dsimp only
  split
  · exact h
  · exact h.modifyAxis _ fun _ hx => hx.hold

theorem jogRule_timersOk (fs : List Field) (h : s.TimersOk) : (jogRule fs s).2.TimersOk := by
  unfold jogRule
  dsimp only
  split
  · exact h
  split
  · exact h
  split
  · exact h
  split
  · exact h
  · unfold State.jog
    split
    · exact h.take _ fun _ hx => hx.jogNone ..
    · exact h.modifyAxis _ fun _ hx => hx.jog ..

theorem putWindowRule_timersOk (fs : List Field) (h : s.TimersOk) : (putWindowRule fs s).2.TimersOk := by
  unfold putWindowRule
  dsimp only
  split
  · exact h
  · exact (h.setMonitor _).monitorTakes ..

theorem putGuardRule_timersOk (fs : List Field) (h : s.TimersOk) : (putGuardRule fs s).2.TimersOk := by
  unfold putGuardRule
  dsimp only
  split
  · exact h
  · exact ((h.setMonitor _).offers _).sends _

theorem dropGuardRule_timersOk (fs : List Field) (h : s.TimersOk) : (dropGuardRule fs s).2.TimersOk := by
  unfold dropGuardRule
  dsimp only
  split
  · exact h
  · exact (h.setMonitor _).sends _

/-- A request whose rule leaves axes, Link Port and microseconds alone, but for what is no timer. -/
theorem State.TimersOk.execute_same (h : s.TimersOk) {c : ReqCode} {own : List Field → State → Answer × State}
    (ho : ∀ fs u, (own fs u).2.micros = State.micros u ∧ (own fs u).2.timers = State.timers u) :
    (s.execute c own).TimersOk :=
  h.execute fun fs u hu => by
    obtain ⟨hm, ht⟩ := ho fs u
    unfold State.TimersOk
    rw [hm, ht]
    exact hu

/-! ### Expiries, resets, link loss -/

/-- An expiry keeps the timers where its effect does: it lets the clock run only as far as every timer may run. -/
theorem State.TimersOk.expire (h : s.TimersOk) {f : State → State} (hf : ∀ u, State.TimersOk u → (f u).TimersOk)
    (k : Option Timer) (late : Nat) : (s.expire k late f).TimersOk := by
  rcases s.expire_cases k late f with e | ⟨u, -, hrun, e⟩ <;> rw [e]
  · exact h
  · exact hf _ (h.advance hrun)

/-- A timer of an axis whose expiry its Axis Controller takes. -/
theorem State.TimersOk.expire_take (h : s.TimersOk) {a : AxisId} {f : State → Axis → Taken}
    (hf : ∀ u x, Axis.InTime x → (f u x).1.InTime) (k : Option Timer) (late : Nat) :
    (s.expire k late (fun u => u.take a (f u))).TimersOk :=
  h.expire (fun u hu => hu.take a (hf u)) k late

theorem State.timersOk_resetTo (s : State) (c : Cause) (st : Straps) (held : Bool) : (s.resetTo c st held).TimersOk :=
  State.timersOk_iff.2 ⟨Nat.zero_lt_succ _, fun a => by
    rw [State.resetTo_axis]
    exact Axis.inTime_resetTo .., LinkPort.inTime_reset st held⟩

theorem State.TimersOk.frameEnds (h : s.TimersOk) (st : Straps) : (s.frameEnds st).TimersOk := by
  unfold State.frameEnds
  split
  · exact s.timersOk_resetTo ..
  all_goals exact h.setLink ⟨h.link.gap, h.link.keepalive, nofun⟩

theorem State.TimersOk.linkLoss (h : s.TimersOk) (order : List Block) : (s.linkLoss order).TimersOk := by
  obtain ⟨haxis, -, -, -, -, hmicros, -⟩ := s.linkLoss_eq order
  refine State.timersOk_iff.2 ⟨hmicros ▸ h.1, fun a => ?_, ?_⟩
  · rw [haxis]
    exact (h.axes a).linkLost ..
  · rw [State.linkLoss_link]
    exact ⟨h.link.gap, nofun, h.link.transmitter⟩

theorem State.TimersOk.restartAfterLoss (h : s.TimersOk) (st : Straps) : (s.restartAfterLoss st).TimersOk := by
  unfold State.restartAfterLoss
  split
  · exact s.timersOk_resetTo ..
  all_goals exact h

theorem State.TimersOk.senseChange (h : s.TimersOk) (a : AxisId) (high : Bool) (order : List Block) :
    (s.senseChange a high order).TimersOk := by
  have hlevel : (s.modifyAxis a (Axis.senseLevel high)).TimersOk :=
    h.modifyAxis a fun _ hx => ⟨hx.line, hx.motion, hx.lockout, hx.stall⟩
  have hhome : ((s.modifyAxis a (Axis.senseLevel high)).homeAtEdge order).TimersOk := by
    unfold State.homeAtEdge
    split
    · exact hlevel.execute fun fs _ hu => homeRule_timersOk fs hu
    · exact hlevel
  unfold State.senseChange
  dsimp only
  split
  · rename_i r hm
    exact hlevel.homingSense (Motion.inTime_homing.1 (hm ▸ (hlevel.axes a).motion)) _ order
  all_goals exact hhome.logSense a _

end

/-! ### Every command -/

/-- The command of a request keeps every timer before its last moment. -/
theorem ReqCode.exec_timersOk (c : ReqCode) {s t : State} (h : s.TimersOk) (e : exec c.command s = .next t) :
    t.TimersOk := by
  cases c <;> cases e
  case openSession => exact h.execute fun fs _ hu => openRule_timersOk fs hu
  case closeSession => exact h.execute fun fs _ hu => closeRule_timersOk fs hu
  case setAxis => exact h.execute fun fs _ hu => setAxisRule_timersOk fs hu
  case clearFault => exact h.execute fun fs _ hu => clearFaultRule_timersOk fs hu
  case home => exact h.execute fun fs _ hu => homeRule_timersOk fs hu
  case teach => exact h.execute fun fs _ hu => teachRule_timersOk fs hu
  case shift => exact h.execute fun fs _ hu => shiftRule_timersOk fs hu
  case enqueue => exact h.execute fun fs _ hu => enqueueRule_timersOk fs hu
  case cancel => exact h.execute fun fs _ hu => cancelRule_timersOk fs hu
  case hold => exact h.execute fun fs _ hu => holdRule_timersOk fs hu
  case release => exact h.execute fun _ _ hu => hu.modifyAxis _ fun _ hx => hx.release
  case stop => exact h.execute fun _ _ hu => hu.take _ fun _ hx => hx.stop ..
  case jog => exact h.execute fun fs _ hu => jogRule_timersOk fs hu
  case putWindow => exact h.execute fun fs _ hu => putWindowRule_timersOk fs hu
  case putGuard => exact h.execute fun fs _ hu => putGuardRule_timersOk fs hu
  case dropGuard => exact h.execute fun fs _ hu => dropGuardRule_timersOk fs hu
  case setCapture | readCaptures =>
    exact h.execute fun _ _ hu => hu.modifyAxis _ fun _ hx => ⟨hx.line, hx.motion, hx.lockout, hx.stall⟩
  case ping | identify | restart | getAxis | axisStatus | listStations | listOrders | resendNotices =>
    exact h.execute_same fun _ _ => ⟨rfl, rfl⟩
  case linkStatus | putStation | dropStation | getStation | putProfile | getProfile | dropProfile | dropWindow |
      getWindow | getGuard | setOutputs | ackNotices =>
    refine h.execute_same fun fs u => ?_
    dsimp only [linkStatusRule, putStationRule, dropStationRule, getStationRule, putProfileRule, getProfileRule,
      dropProfileRule, dropWindowRule, getWindowRule, getGuardRule, setOutputsRule, ackNoticesRule]
    repeat' split
    all_goals exact ⟨rfl, rfl⟩

/-- An event of an axis keeps every timer before its last moment. -/
theorem exec_axisEvent_timersOk {i : Instr} (hi : Instr.atAxis i = true) {s t : State} (h : s.TimersOk)
    (e : exec i s = .next t) : t.TimersOk := by
  cases i <;> simp only [Instr.atAxis, Bool.false_eq_true] at hi <;> cases e
  case countEdge a levels order => exact h.countEdge a levels order
  case indexMark a edge order =>
    have hedge : (s.sameInstantEdge a edge order).TimersOk := by
      cases edge with
      | none => exact h
      | some levels => exact h.countEdge a levels order
    exact (hedge.indexCheck a).homingMark a _ order
  case linePairChange a m => exact h.modifyAxis a fun _ hx => hx.pairsChange m
  case lineTimerExpiry a _ => exact h.expire (fun _ hu => hu.lineConditionArises a) _ _
  case stallTimerExpiry => exact h.expire_take (fun _ _ hx => hx.stalls ..) _ _
  case homingLimitExpiry => exact h.expire_take (fun _ _ hx => hx.failHoming ..) _ _
  case settleTimerExpiry | moveLimitExpiry =>
    exact h.expire_take (fun _ _ hx => hx.onOrder fun _ _ => hx.endOrder ..) _ _
  case restTimerExpiry => exact h.expire_take (fun _ _ hx => hx.onOrder fun _ ho => hx.judgeRest ho ..) _ _
  case lockoutTimerExpiry => exact h.expire_take (fun _ _ hx => hx.lockoutExpired ..) _ _
  case deadmanExpiry => exact h.expire_take (fun _ _ hx => hx.endJog ..) _ _
  case orderStart a => exact h.startHead a
  case stopClaim a => exact h.take a fun _ hx => hx.stopClaim ..
  case limitClaim a => exact h.take a fun _ hx => hx.limitClaim ..
  case guardRelease a => exact h.take a fun _ hx => hx.guardRelease
  case faultClaim a => exact (h.dropGained a).take a fun _ hx => hx.faultClaim ..

/-- Every command keeps every timer before its last moment. -/
theorem exec_timersOk (i : Instr) {s t : State} (h : s.TimersOk) (e : exec i s = .next t) : t.TimersOk := by
  cases Instr.kind i with
  | request c => exact c.exec_timersOk h e
  | axisEvent hi => exact exec_axisEvent_timersOk hi h e
  | senseEdge a high order =>
    cases e
    split
    · exact h
    · exact h.senseChange a high order
  | unknownRequestCode =>
    cases e
    rcases s.executeUnknown_cases with e | ⟨r, -, e⟩ <;> rw [e] <;> exact h
  | retryFromCache =>
    cases e
    exact h.setLink h.link.answerRetry
  | byteReceived ev =>
    cases e
    exact h.setLink (h.link.takeEvent ev)
  | frameGapExpiry late =>
    cases e
    exact h.expire (fun _ hu => hu.setLink hu.link.abandons) _ late
  | frameReceived =>
    cases e
    exact h.setLink h.link.frameReceived
  | replyFrameStart =>
    cases e
    exact h.setLink h.link.beginReply
  | noticeFrameStart =>
    cases e
    split
    · exact h
    · exact h.setLink (h.link.transmits ..)
  | frameEnd moment =>
    cases e
    exact h.expire (fun _ hu => hu.frameEnds moment.straps) _ moment.late
  | keepaliveExpiry order moment =>
    cases e
    refine h.expire (fun u hu => ?_) _ moment.late
    split
    · exact hu
    · exact (hu.linkLoss order).restartAfterLoss moment.straps
  | reset pins =>
    cases e
    exact s.timersOk_resetTo ..

/-! ### A millisecond that passes -/

theorem whenDue_eq_none {k : Option Timer} {i : Instr} : whenDue k i = none ↔ ∀ t ∈ k, t.due = false := by
  cases k with
  | none => simp [whenDue]
  | some u => simp [whenDue]

/-- No timer of an axis is due where the axis has no event of its own. -/
theorem Axis.not_due {a : AxisId} {x : Axis} (h : x.ownCommand a = none) : ∀ t ∈ x.timers, t.due = false := by
  simp only [Axis.ownCommand, Option.orElse_eq_orElse, Option.orElse_eq_or, Option.or_eq_none_iff,
    whenDue_eq_none] at h
  obtain ⟨-, -, -, hline, hstall, hhoming, hsettle, hrest, hlimit, hlockout, hdeadman⟩ := h
  simp only [Axis.timers, List.forall_mem_append, Option.mem_toList]
  refine ⟨⟨⟨hline, fun t ht => ?_⟩, hlockout⟩, hstall⟩
  rcases Motion.mem_timers_iff.1 ht with ⟨o, hm, ho⟩ | ⟨r, hm, rfl⟩ | ⟨j, hm, rfl⟩
  · rw [hm] at hlimit hrest hsettle
    rcases ho with ho | ho | ho
    · exact hlimit t ho
    · exact hrest t (by rw [Motion.restTimer, ho]; rfl)
    · exact hsettle t (by rw [Motion.settleTimer, ho]; rfl)
  · exact hhoming r.limit (by rw [hm]; rfl)
  · exact hdeadman j.deadman (by rw [hm]; rfl)

theorem State.link_not_due {s : State} (h : s.linkCommand = none) : ∀ t ∈ s.link.timers, t.due = false := by
  simp only [State.linkCommand, Option.orElse_eq_orElse, Option.orElse_eq_or, Option.or_eq_none_iff,
    whenDue_eq_none] at h
  obtain ⟨-, -, htransmitter, -, -, hgap, hkeepalive⟩ := h
  simp only [LinkPort.timers, List.forall_mem_append, Option.mem_toList]
  exact ⟨⟨hgap, hkeepalive⟩, htransmitter⟩

/-- A millisecond may pass when no event of the part's own is due: a timer that has not run for t ms stays before
t + 1 ms (R199). -/
theorem State.mayRun_of_idle {s : State} (h : s.ownCommand = none) : s.mayRun 1000 = true := by
  simp only [State.ownCommand, Option.orElse_eq_orElse, Option.orElse_eq_or, Option.or_eq_none_iff] at h
  obtain ⟨h0, h1, h2, h3, hlink⟩ := h
  have haxis (a : AxisId) : (s.axis a).ownCommand a = none := by
    cases a
    · exact h0
    · exact h1
    · exact h2
    · exact h3
  have hnot : ∀ t ∈ s.timers, t.due = false := by
    simp only [State.timers, List.forall_mem_append, List.forall_mem_flatMap]
    exact ⟨fun a _ => Axis.not_due (haxis a), State.link_not_due hlink⟩
  refine State.mayRun_iff.2 (.inr fun t ht => ?_)
  have hdue := of_decide_eq_false (hnot t ht)
  omega

/-- Settles O14: a step runs a command, which keeps every timer before its last moment (`exec_timersOk`), or lets a
millisecond pass, which every timer may run while none is due (`State.mayRun_of_idle`). -/
theorem stepsKeepTheTimers : Obligations.StepsKeepTheTimers := by
  intro s t h e
  unfold step at e
  split at e
  · rename_i rest _
    exact exec_timersOk _ (s := s.withPending rest) h e
  · split at e
    · exact exec_timersOk _ h e
    · rename_i hidle
      cases e
      exact h.advance (State.mayRun_of_idle hidle)

end Sys2Proof.Machine
end

section
namespace Sys2Proof.Machine

/-! ### Time that passes -/

/-- An expiry whose timer does not run, or before which another has to come, leaves the state as it is. -/
theorem State.expire_idles {s : State} {k : Option Timer} {late : Nat}
    (h : ∀ t, k = some t → s.mayRun (t.wait late) = false) (f : State → State) : s.expire k late f = s := by
  cases k with
  | none => rfl
  | some t => exact State.expire_out (h t rfl) f

/-- Settles O4: what moves by the framer and the motion state, the bound on each timer (`State.mayRun_iff`), the timers of
the Link Port and of each axis, and an expiry that is not due in its turn (`State.expire_idles`). -/
theorem timeMovesOnlyTimers : Obligations.TimeMovesOnlyTimers := by
  refine ⟨fun s n => ⟨rfl, rfl, rfl, rfl, rfl, rfl, ?_, fun a => ?_⟩, fun s n => State.mayRun_iff, fun s t => ?_,
    fun s a late order straps => ?_⟩
  · show s.link.advance n = _
    unfold LinkPort.advance
    cases s.link.framer <;> rfl
  · intro x
    refine (s.advance_axis n a).trans ?_
    show x.advance n = _
    unfold Axis.advance Motion.advance
    cases x.motion with
    | moving o =>
      unfold Substate.advance
      dsimp only
      cases o.substate <;> rfl
    | idle | held | waiting | homing | jogging | faulted => rfl
  · rw [State.mem_timers_iff, LinkPort.mem_timers_iff]
    simp only [Axis.mem_timers_iff, or_assoc]
  · intro x timers
    have idles {i : Instr} {k : Option Timer} {f : State → State} (hi : exec i s = .next (s.expire k late f))
        (hk : ∀ t, k = some t → s.mayRun (t.wait late) = false) : exec i s = .next s :=
      hi.trans (congrArg Host.Outcome.next (State.expire_idles hk f))
    simp only [timers, List.forall_mem_cons]
    exact ⟨idles rfl, idles rfl, idles rfl, idles rfl, idles rfl, idles rfl, idles rfl, idles rfl, idles rfl, idles rfl,
      idles rfl, List.forall_mem_nil _⟩

/-- Settles O2: the two cases of a step with nothing waiting. -/
theorem emptyQueueTakesOwnEventOrTick : Obligations.EmptyQueueTakesOwnEventOrTick := by
  intro s h
  refine ⟨fun c hc => ?_, fun hidle => ?_⟩
  · unfold step
    rw [h, hc]
  · unfold step
    rw [h, hidle]

end Sys2Proof.Machine
end

section
namespace Sys2Proof.Machine

/-- Settles O1: with a command waiting, `step` takes the branch that runs it, and the rest of the queue stays. -/
theorem stepRunsTheFrontCommand : Obligations.StepRunsTheFrontCommand := by
  intro c rest s h
  unfold step
  rw [h]

end Sys2Proof.Machine
end
